-- ==== Sys2Proof/Word.lean ====
section
/-! DEFINITION. The word types of the codec (00_scope.md R6, R11; 10_state.md R24, R25, R30). -/

namespace Sys2Proof

/-- A byte, the unit of every frame space (R6, R11, R45). -/
abbrev Byte := BitVec 8

/-- A 16-bit field of a response payload (R30, R31). -/
abbrev Half := BitVec 16

/-- The width of RXST (R24). Values 5, 6 and 7 exist as bits and are never written (S3). -/
abbrev Status := BitVec 3

/-- The width of RXTAG (R25). Value 3 exists as bits and is never written (S3). -/
abbrev Tag := BitVec 2

end Sys2Proof
end

