-- ==== Sys2Proof/Config.lean ====
section
/-! DEFINITION. The fixed parameters of 00_scope.md R6, the status and tag codes of 10_state.md R24 and R25, and the
named parameters R8 leaves to the model. -/

namespace Sys2Proof.Config

/-- HDR, the header byte of both frames (R6). -/
abbrev hdr : Byte := 0xAA
/-- CMD_TAG, the command-id byte (R6). -/
abbrev cmdTag : Byte := 0xB4
/-- TAG_DATA, the response-type byte of a DATA frame (R6, R71). -/
abbrev tagData : Byte := 0xC0
/-- TAG_SETTING, the response-type byte of a SETTING frame (R6, R71). -/
abbrev tagSetting : Byte := 0xC5
/-- TAIL, the tail byte of both frames (R6). -/
abbrev tail : Byte := 0xAB
/-- DEFAULT_ADDR1 and DEFAULT_ADDR2, the broadcast address bytes (R6, R102). -/
abbrev defaultAddr : Byte := 0xFF

/-- Operation ids (R6, R66). -/
abbrev opMode : Byte := 0x02
abbrev opQuery : Byte := 0x04
abbrev opSetId : Byte := 0x05
abbrev opSleep : Byte := 0x06
abbrev opPeriod : Byte := 0x08

/-- Sub-codes (R6, R67). -/
abbrev subRead : Byte := 0x00
abbrev subWrite : Byte := 0x01

/-- Setting values (R6, R67). -/
abbrev modeActive : Byte := 0x00
abbrev modeQuery : Byte := 0x01
abbrev sleepSleep : Byte := 0x00
abbrev sleepWork : Byte := 0x01

/-- WORK_PERIOD_MAX, in minutes (R6, R119). -/
abbrev workPeriodMax : Int := 30

/-- The codes of RXST (R24, D9). -/
abbrev rxstIdle : Status := 0
abbrev rxstOk : Status := 1
abbrev rxstErrFraming : Status := 2
abbrev rxstErrChecksum : Status := 3
abbrev rxstErrType : Status := 4

/-- The codes of RXTAG (R25, D9). -/
abbrev rxtagNone : Tag := 0
abbrev rxtagData : Tag := 1
abbrev rxtagSetting : Tag := 2

/-- Is the byte one of the enumerated operation ids (R6 "OPID set", R66)? -/
def opidKnown (opid : Byte) : Bool :=
  opid == opMode || opid == opQuery || opid == opSetId || opid == opSleep || opid == opPeriod

/-- ENC_REFUSE_UNKNOWN_OPID (R8): `false` in this spec, so that ENC encodes every 8-bit opId (R105, D5). The operation
`Machine.encodeCommandWith` takes it as an argument, so both values have a meaning. -/
abbrev encRefuseUnknownOpid : Bool := false

/-- ENC_LATENCY (R8, R205, S4): OPEN, a free value that no rule and no definition of the model reads. -/
opaque encLatency : Nat

/-- DEC_LATENCY (R8, R205, S4): OPEN, a free value that no rule and no definition of the model reads. -/
opaque decLatency : Nat

end Sys2Proof.Config
end

