-- ==== Sys2Proof/Syntax.lean ====
section
/-! DEFINITION. The instructions: one constructor for each row of spec/opcode_table.json, with the operands the row's
rule gives it. The three rows of kind `operation` are the codec's own operations (30_encoding.md R60); the others name a
descriptor (ENCB) or a wire frame that an ENC produces or a DEC consumes (R79). -/

namespace Sys2Proof

inductive Instr
  /-- NOP (R63, R150). -/
  | nop
  /-- ENC opid, [p0, ..., p11], a1, a2 (R61, R100). -/
  | enc (opid : Byte) (payload : Vector Byte 12) (addr1 addr2 : Byte)
  /-- DEC [r0, ..., r9] (R62, R130). -/
  | dec (raw : Vector Byte 10)
  /-- ENCB opid, [p0, ..., p11]: ENC with the default addresses (R102). -/
  | encb (opid : Byte) (payload : Vector Byte 12)
  /-- CMD_FRAME: the generic command frame, by the operands that fill it (R64, R79, R100). -/
  | cmdFrame (opid : Byte) (payload : Vector Byte 12) (addr1 addr2 : Byte)
  /-- CMD_GET_MODE (R110). -/
  | cmdGetMode
  /-- CMD_SET_MODE ACTIVE (R111). -/
  | cmdSetModeActive
  /-- CMD_SET_MODE QUERY (R112). -/
  | cmdSetModeQuery
  /-- CMD_QUERY (R113). -/
  | cmdQuery
  /-- CMD_SET_ID [P0, ..., P11] (R114). -/
  | cmdSetId (payload : Vector Byte 12)
  /-- CMD_GET_SLEEP (R115). -/
  | cmdGetSleep
  /-- CMD_SLEEP (R116). -/
  | cmdSleep
  /-- CMD_WORK (R117). -/
  | cmdWork
  /-- CMD_GET_PERIOD (R118). -/
  | cmdGetPeriod
  /-- CMD_SET_PERIOD n, an integer 0 to 30 (R119; the range is WellFormed's). -/
  | cmdSetPeriod (minutes : Int)
  /-- RSP_DATA: the DEC of a frame with the markers and the DATA tag, any payload and checksum byte (R70, R79, R130). -/
  | rspData (payload : Vector Byte 6) (checksum : Byte)
  /-- RSP_SETTING: the same with the SETTING tag (R70, R79, R130). -/
  | rspSetting (payload : Vector Byte 6) (checksum : Byte)
  deriving DecidableEq, Repr

/-- The rows of spec/opcode_table.json by name. -/
inductive Row
  | nop | enc | dec | encb | cmdFrame | cmdGetMode | cmdSetModeActive | cmdSetModeQuery | cmdQuery | cmdSetId
  | cmdGetSleep | cmdSleep | cmdWork | cmdGetPeriod | cmdSetPeriod | rspData | rspSetting
  deriving DecidableEq, Repr

/-- The row an instruction stands for. -/
def Instr.row : Instr → Row
  | .nop => .nop
  | .enc _ _ _ _ => .enc
  | .dec _ => .dec
  | .encb _ _ => .encb
  | .cmdFrame _ _ _ _ => .cmdFrame
  | .cmdGetMode => .cmdGetMode
  | .cmdSetModeActive => .cmdSetModeActive
  | .cmdSetModeQuery => .cmdSetModeQuery
  | .cmdQuery => .cmdQuery
  | .cmdSetId _ => .cmdSetId
  | .cmdGetSleep => .cmdGetSleep
  | .cmdSleep => .cmdSleep
  | .cmdWork => .cmdWork
  | .cmdGetPeriod => .cmdGetPeriod
  | .cmdSetPeriod _ => .cmdSetPeriod
  | .rspData _ _ => .rspData
  | .rspSetting _ _ => .rspSetting

/-- The instructions that are an ENC (R100, R102, R110 to R119). -/
def Instr.isEncode : Instr → Bool
  | .nop => false
  | .enc _ _ _ _ => true
  | .dec _ => false
  | .encb _ _ => true
  | .cmdFrame _ _ _ _ => true
  | .cmdGetMode => true
  | .cmdSetModeActive => true
  | .cmdSetModeQuery => true
  | .cmdQuery => true
  | .cmdSetId _ => true
  | .cmdGetSleep => true
  | .cmdSleep => true
  | .cmdWork => true
  | .cmdGetPeriod => true
  | .cmdSetPeriod _ => true
  | .rspData _ _ => false
  | .rspSetting _ _ => false

/-- The instructions that are a DEC (R130). -/
def Instr.isDecode : Instr → Bool
  | .nop => false
  | .enc _ _ _ _ => false
  | .dec _ => true
  | .encb _ _ => false
  | .cmdFrame _ _ _ _ => false
  | .cmdGetMode => false
  | .cmdSetModeActive => false
  | .cmdSetModeQuery => false
  | .cmdQuery => false
  | .cmdSetId _ => false
  | .cmdGetSleep => false
  | .cmdSleep => false
  | .cmdWork => false
  | .cmdGetPeriod => false
  | .cmdSetPeriod _ => false
  | .rspData _ _ => true
  | .rspSetting _ _ => true

end Sys2Proof
end

