-- ==== Sys2Proof/WellFormed.lean ====
section
/-! DEFINITION. Which instructions the assembler admits (30_encoding.md R78, 41_encode.md R119). Operand widths are
structural: a payload is a 12-byte and a raw frame a 10-byte operand (R45, R61, R62, D4). -/

namespace Sys2Proof

/-- CMD_SET_PERIOD: "the assembler refuses n < 0 or n > 30" (R119). -/
abbrev minutesAdmitted (minutes : Int) : Prop := 0 ≤ minutes ∧ minutes ≤ Config.workPeriodMax

def Instr.wellFormed : Instr → Bool
  | .nop => true
  | .enc _ _ _ _ => true
  | .dec _ => true
  | .encb _ _ => true
  | .cmdFrame _ _ _ _ => true
  | .cmdGetMode => true
  | .cmdSetModeActive => true
  | .cmdSetModeQuery => true
  | .cmdQuery => true
  | .cmdSetId _ => true
  | .cmdGetSleep => true
  | .cmdSleep => true
  | .cmdWork => true
  | .cmdGetPeriod => true
  | .cmdSetPeriod minutes => decide (minutesAdmitted minutes)
  | .rspData _ _ => true
  | .rspSetting _ _ => true

end Sys2Proof
end

