-- ==== Sys2Proof/Decode.lean ====
section
/-! DEFINITION. Operation descriptors (30_encoding.md R60 to R63, R75): the decoder, total on any bytes and rejecting by
name, and the encoder after it; the naming of wire frames by the opcode table's rows (R79); and the two readings of a
table word that the host asks for. -/

namespace Sys2Proof

/-! ## The operation byte -/

/-- OPSEL, bits [1:0] of the operation byte (R60). -/
def opsel (op : Byte) : BitVec 2 := op.extractLsb' 0 2

/-- The must-be-zero field, bits [7:2] of the operation byte (R60). -/
def mbz (op : Byte) : BitVec 6 := op.extractLsb' 2 6

/-- The three operation bytes (R60). -/
abbrev opNop : Byte := 0x00
abbrev opEnc : Byte := 0x01
abbrev opDec : Byte := 0x02

/-- The length of the descriptor an operation byte begins, told by OPSEL (R75); none for a reserved byte (R77). -/
def descriptorLength (op : Byte) : Option Nat :=
  if mbz op ≠ 0 then none
  else if opsel op = 0 then some 1
  else if opsel op = 1 then some 16
  else if opsel op = 2 then some 11
  else none

/-! ## Payloads and expansions -/

/-- A configuration payload: sub-code, setting value, ten zero bytes (R68). -/
def settingPayload (sub value : Byte) : Vector Byte 12 :=
  #v[sub, value, 0, 0, 0, 0, 0, 0, 0, 0, 0, 0]

/-- The 12 zero bytes of a query-data payload (R68, R113). -/
def zeroPayload : Vector Byte 12 := #v[0, 0, 0, 0, 0, 0, 0, 0, 0, 0, 0, 0]

/-- The byte of a work period in minutes (R67, R119). -/
def minutesByte (minutes : Int) : Byte := BitVec.ofInt 8 minutes

/-- The operation a pseudo-instruction or a frame row expands to (R102, R110 to R119; CMD_FRAME by R64, the response rows
by R70): always one of the three operations of R60. -/
def Instr.expand : Instr → Instr
  | .nop => .nop
  | .enc o p a b => .enc o p a b
  | .dec raw => .dec raw
  | .encb o p => .enc o p Config.defaultAddr Config.defaultAddr
  | .cmdFrame o p a b => .enc o p a b
  | .cmdGetMode =>
    .enc Config.opMode (settingPayload Config.subRead 0x00) Config.defaultAddr Config.defaultAddr
  | .cmdSetModeActive =>
    .enc Config.opMode (settingPayload Config.subWrite Config.modeActive) Config.defaultAddr Config.defaultAddr
  | .cmdSetModeQuery =>
    .enc Config.opMode (settingPayload Config.subWrite Config.modeQuery) Config.defaultAddr Config.defaultAddr
  | .cmdQuery => .enc Config.opQuery zeroPayload Config.defaultAddr Config.defaultAddr
  | .cmdSetId p => .enc Config.opSetId p Config.defaultAddr Config.defaultAddr
  | .cmdGetSleep =>
    .enc Config.opSleep (settingPayload Config.subRead 0x00) Config.defaultAddr Config.defaultAddr
  | .cmdSleep =>
    .enc Config.opSleep (settingPayload Config.subWrite Config.sleepSleep) Config.defaultAddr Config.defaultAddr
  | .cmdWork =>
    .enc Config.opSleep (settingPayload Config.subWrite Config.sleepWork) Config.defaultAddr Config.defaultAddr
  | .cmdGetPeriod =>
    .enc Config.opPeriod (settingPayload Config.subRead 0x00) Config.defaultAddr Config.defaultAddr
  | .cmdSetPeriod n =>
    .enc Config.opPeriod (settingPayload Config.subWrite (minutesByte n)) Config.defaultAddr Config.defaultAddr
  | .rspData p c =>
    .dec #v[Config.hdr, Config.tagData, p[0], p[1], p[2], p[3], p[4], p[5], c, Config.tail]
  | .rspSetting p c =>
    .dec #v[Config.hdr, Config.tagSetting, p[0], p[1], p[2], p[3], p[4], p[5], c, Config.tail]

/-! ## Naming an operation by its most specific row

R79: several rows match one operation, and "the row with the most mask bits set names the frame". DEDUCED (log 5): the
decoder gives an operation the name of that row. A minutes byte over 30 spells no CMD_SET_PERIOD (R119), so such a
descriptor keeps the name ENCB. -/

/-- The name of an ENC with the default addresses: the builder whose row its frame matches, else ENCB. -/
def nameDefaultEnc (o : Byte) (p : Vector Byte 12) : Instr :=
  if o = Config.opMode then
    if p = settingPayload Config.subRead 0x00 then .cmdGetMode
    else if p = settingPayload Config.subWrite Config.modeActive then .cmdSetModeActive
    else if p = settingPayload Config.subWrite Config.modeQuery then .cmdSetModeQuery
    else .encb o p
  else if o = Config.opQuery then
    if p = zeroPayload then .cmdQuery else .encb o p
  else if o = Config.opSetId then .cmdSetId p
  else if o = Config.opSleep then
    if p = settingPayload Config.subRead 0x00 then .cmdGetSleep
    else if p = settingPayload Config.subWrite Config.sleepSleep then .cmdSleep
    else if p = settingPayload Config.subWrite Config.sleepWork then .cmdWork
    else .encb o p
  else if o = Config.opPeriod then
    if p = settingPayload Config.subRead 0x00 then .cmdGetPeriod
    else if p = settingPayload Config.subWrite p[1] ∧ minutesAdmitted p[1].toNat then .cmdSetPeriod p[1].toNat
    else .encb o p
  else .encb o p

/-- The name of an ENC. -/
def nameEnc (o : Byte) (p : Vector Byte 12) (a b : Byte) : Instr :=
  if a = Config.defaultAddr ∧ b = Config.defaultAddr then nameDefaultEnc o p else .enc o p a b

/-- The payload bytes of a response frame, frame indices 2 to 7 (R70). -/
def rawPayload (raw : Vector Byte 10) : Vector Byte 6 :=
  #v[raw[2], raw[3], raw[4], raw[5], raw[6], raw[7]]

/-- The name of a DEC: the response row its operand matches (R79; the checksum byte is outside the row's mask), else DEC. -/
def nameDec (raw : Vector Byte 10) : Instr :=
  if raw[0] = Config.hdr ∧ raw[9] = Config.tail then
    if raw[1] = Config.tagData then .rspData (rawPayload raw) raw[8]
    else if raw[1] = Config.tagSetting then .rspSetting (rawPayload raw) raw[8]
    else .dec raw
  else .dec raw

/-- The name the decoder gives an instruction's words. -/
def Instr.canonical (i : Instr) : Instr :=
  match i.expand with
  | .enc o p a b => nameEnc o p a b
  | .dec raw => nameDec raw
  | j => j

/-! ## The decoder -/

/-- Why bytes spell no operation. -/
inductive DecodeError
  /-- No operation byte. -/
  | empty
  /-- OPSEL = 0b11 or a bit of [7:2] set (R77). -/
  | reserved (op : Byte)
  /-- Fewer operand bytes than the operation's descriptor has (R61, R62). -/
  | truncated (op : Byte)
  deriving DecidableEq, Repr

/-- What the decoder answers: an instruction and the bytes after its descriptor, or a rejection. -/
inductive Decoded
  | instr (i : Instr) (rest : List Byte)
  | rejected (e : DecodeError)
  deriving DecidableEq, Repr

/-- The operands of an ENC descriptor, bytes 1 to 15 (R61). -/
def decodeEncOperands : List Byte → Option (Instr × List Byte)
  | o :: p0 :: p1 :: p2 :: p3 :: p4 :: p5 :: p6 :: p7 :: p8 :: p9 :: p10 :: p11 :: a :: b :: rest =>
    some (nameEnc o #v[p0, p1, p2, p3, p4, p5, p6, p7, p8, p9, p10, p11] a b, rest)
  | _ => none

/-- The operands of a DEC descriptor, bytes 1 to 10 (R62). -/
def decodeDecOperands : List Byte → Option (Instr × List Byte)
  | r0 :: r1 :: r2 :: r3 :: r4 :: r5 :: r6 :: r7 :: r8 :: r9 :: rest =>
    some (nameDec #v[r0, r1, r2, r3, r4, r5, r6, r7, r8, r9], rest)
  | _ => none

/-- A decoded operand list, or the rejection of a short one. -/
def orTruncated (op : Byte) : Option (Instr × List Byte) → Decoded
  | some (i, rest) => .instr i rest
  | none => .rejected (.truncated op)

/-- Decode the descriptor at the head of a byte sequence (R60 to R63, R75, R77). -/
def decode : List Byte → Decoded
  | [] => .rejected .empty
  | op :: rest =>
    if mbz op ≠ 0 then .rejected (.reserved op)
    else if opsel op = 0 then .instr .nop rest
    else if opsel op = 1 then orTruncated op (decodeEncOperands rest)
    else if opsel op = 2 then orTruncated op (decodeDecOperands rest)
    else .rejected (.reserved op)

/-! ## The encoder -/

/-- The descriptor of an ENC (R61). -/
def encDescriptor (o : Byte) (p : Vector Byte 12) (a b : Byte) : List Byte :=
  [opEnc, o, p[0], p[1], p[2], p[3], p[4], p[5], p[6], p[7], p[8], p[9], p[10], p[11], a, b]

/-- The descriptor of a DEC (R62). -/
def decDescriptor (raw : Vector Byte 10) : List Byte :=
  [opDec, raw[0], raw[1], raw[2], raw[3], raw[4], raw[5], raw[6], raw[7], raw[8], raw[9]]

/-- The descriptor of an instruction: that of the one operation it expands to (R102, R110 to R119). -/
def encode (i : Instr) : List Byte :=
  match i.expand with
  | .enc o p a b => encDescriptor o p a b
  | .dec raw => decDescriptor raw
  | _ => [opNop]

/-! ## The rows of the opcode table (R79) -/

/-- A row: match and mask, first byte first. A row of kind `operation` is matched with the operation byte, one of kind
`pseudo` with a descriptor, one of kind `command_frame` or `response_frame` with a whole wire frame (R79). -/
structure TableRow where
  row     : Row
  pattern : List Byte
  mask    : List Byte
  deriving DecidableEq, Repr

/-- "a frame F is of that row when (F AND mask) = match" (R79). -/
def TableRow.covers (r : TableRow) (frame : List Byte) : Bool :=
  frame.length == r.pattern.length && List.zipWith (· &&& ·) frame r.mask == r.pattern

/-- How many bits of a byte are set. -/
def byteWeight (b : Byte) : Nat := ((List.range 8).filter fun k => b.getLsbD k).length

/-- How many mask bits a row sets. -/
def TableRow.maskBits (r : TableRow) : Nat := (r.mask.map byteWeight).sum

/-- The three rows of kind `operation` (R60, R79). -/
def operationRows : List TableRow :=
  [ { row := .nop, pattern := [0x00], mask := [0xFF] },
    { row := .enc, pattern := [0x01], mask := [0xFF] },
    { row := .dec, pattern := [0x02], mask := [0xFF] } ]

/-- The row of kind `pseudo`, over the 16-byte ENC descriptor (R79, R102). -/
def encbRow : TableRow where
  row := .encb
  pattern := [0x01, 0, 0, 0, 0, 0, 0, 0, 0, 0, 0, 0, 0, 0, 0xFF, 0xFF]
  mask := [0xFF, 0, 0, 0, 0, 0, 0, 0, 0, 0, 0, 0, 0, 0, 0xFF, 0xFF]

/-- The row of a builder without free payload bytes: only the checksum byte is free (spec/opcode_table.json). -/
def fixedBuilderRow (row : Row) (o sub value : Byte) : TableRow where
  row := row
  pattern := [0xAA, 0xB4, o, sub, value, 0, 0, 0, 0, 0, 0, 0, 0, 0, 0, 0xFF, 0xFF, 0x00, 0xAB]
  mask := [0xFF, 0xFF, 0xFF, 0xFF, 0xFF, 0xFF, 0xFF, 0xFF, 0xFF, 0xFF, 0xFF, 0xFF, 0xFF, 0xFF, 0xFF, 0xFF, 0xFF,
    0x00, 0xFF]

/-- CMD_SET_ID's row: the payload is free. -/
def setIdRow : TableRow where
  row := .cmdSetId
  pattern := [0xAA, 0xB4, 0x05, 0, 0, 0, 0, 0, 0, 0, 0, 0, 0, 0, 0, 0xFF, 0xFF, 0x00, 0xAB]
  mask := [0xFF, 0xFF, 0xFF, 0, 0, 0, 0, 0, 0, 0, 0, 0, 0, 0, 0, 0xFF, 0xFF, 0x00, 0xFF]

/-- CMD_SET_PERIOD's row: the minutes byte is free. -/
def setPeriodRow : TableRow where
  row := .cmdSetPeriod
  pattern := [0xAA, 0xB4, 0x08, 0x01, 0, 0, 0, 0, 0, 0, 0, 0, 0, 0, 0, 0xFF, 0xFF, 0x00, 0xAB]
  mask := [0xFF, 0xFF, 0xFF, 0xFF, 0x00, 0xFF, 0xFF, 0xFF, 0xFF, 0xFF, 0xFF, 0xFF, 0xFF, 0xFF, 0xFF, 0xFF, 0xFF,
    0x00, 0xFF]

/-- The ten builder rows. -/
def builderRows : List TableRow :=
  [ fixedBuilderRow .cmdGetMode 0x02 0x00 0x00,
    fixedBuilderRow .cmdSetModeActive 0x02 0x01 0x00,
    fixedBuilderRow .cmdSetModeQuery 0x02 0x01 0x01,
    fixedBuilderRow .cmdQuery 0x04 0x00 0x00,
    setIdRow,
    fixedBuilderRow .cmdGetSleep 0x06 0x00 0x00,
    fixedBuilderRow .cmdSleep 0x06 0x01 0x00,
    fixedBuilderRow .cmdWork 0x06 0x01 0x01,
    fixedBuilderRow .cmdGetPeriod 0x08 0x00 0x00,
    setPeriodRow ]

/-- The generic command frame row. -/
def cmdFrameRow : TableRow where
  row := .cmdFrame
  pattern := [0xAA, 0xB4, 0, 0, 0, 0, 0, 0, 0, 0, 0, 0, 0, 0, 0, 0, 0, 0, 0xAB]
  mask := [0xFF, 0xFF, 0, 0, 0, 0, 0, 0, 0, 0, 0, 0, 0, 0, 0, 0, 0, 0, 0xFF]

/-- The two response rows. -/
def responseRows : List TableRow :=
  [ { row := .rspData, pattern := [0xAA, 0xC0, 0, 0, 0, 0, 0, 0, 0, 0xAB], mask := [0xFF, 0xFF, 0, 0, 0, 0, 0, 0, 0, 0xFF] },
    { row := .rspSetting, pattern := [0xAA, 0xC5, 0, 0, 0, 0, 0, 0, 0, 0xAB], mask := [0xFF, 0xFF, 0, 0, 0, 0, 0, 0, 0, 0xFF] } ]

def frameRows : List TableRow := cmdFrameRow :: builderRows ++ responseRows

/-- Of two rows, the one with more mask bits set. -/
def TableRow.moreSpecific (best : Option TableRow) (r : TableRow) : Option TableRow :=
  match best with
  | none => some r
  | some b => if b.maskBits < r.maskBits then some r else some b

/-- "the row with the most mask bits set names the frame" (R79). -/
def nameFrame (frame : List Byte) : Option Row :=
  (((frameRows.filter fun r => r.covers frame).foldl TableRow.moreSpecific none).map TableRow.row)

/-! ## Table words

The host numbers a row's bits from the first byte: byte k of a row is bits 8k+7 to 8k of its word. -/

/-- The first `n` bytes of a table word. -/
def wordBytes (n w : Nat) : List Byte := (List.range n).map fun k => BitVec.ofNat 8 (w / 2 ^ (8 * k))

/-- The descriptor of the ENC that produces a command frame, or of the DEC that consumes a response frame: the operation
a frame row stands for (log 7). -/
def descriptorOfFrame (frame : List Byte) : List Byte :=
  if cmdFrameRow.covers frame then opEnc :: (frame.drop 2).take 15
  else if frame.length = 10 then opDec :: frame
  else frame

/-- The descriptor a table word spells. A row of 8 or 128 bits is an operation byte or a descriptor, its absent operand
bytes zero; a row of 152 or 80 bits is a wire frame (R79), which stands for the operation that produces or consumes it. -/
def descriptorOfWord (nbits w : Nat) : List Byte :=
  if nbits = 152 then descriptorOfFrame (wordBytes 19 w)
  else if nbits = 80 then descriptorOfFrame (wordBytes 10 w)
  else
    let bytes := wordBytes 16 (w % 2 ^ nbits)
    bytes.take ((descriptorLength (BitVec.ofNat 8 w)).getD 1)

/-- The frame row's own name for a generic command frame is CMD_FRAME; a descriptor's name is ENC or ENCB (log 6). -/
def frameName : Instr → Instr
  | .enc o p a b => .cmdFrame o p a b
  | .encb o p => .cmdFrame o p Config.defaultAddr Config.defaultAddr
  | i => i

/-- The instruction a table word spells, none where the decoder rejects it. -/
def decodeTableWord (nbits w : Nat) : Option Instr :=
  match decode (descriptorOfWord nbits w) with
  | .instr i [] => some (if nbits = 152 then frameName i else i)
  | .instr _ (_ :: _) => none
  | .rejected _ => none

end Sys2Proof
end

