-- ==== Sys2Proof/Machine/State.lean ====
section
/-! DEFINITION. The state of the codec (10_state.md R20 to R39), what the host may do to it (R175, R190, R47), and the
reasons a step can stop (R164). -/

namespace Sys2Proof.Machine

/-- What a host read names: a result register (R22 to R33), or one element of an array register (R12, R13). -/
inductive ResultReg
  | txf | txv | rxst | rxtag | rxp | rxtb | rxcsc | rxcst | pm25 | pm10 | devid | rdv
  | txfByte (i : Fin 19)
  | rxpByte (i : Fin 6)
  deriving DecidableEq, Repr

/-- What a host read returns: the whole register, in its width (R46). -/
inductive ReadValue
  | flag (b : Bool)
  | status (v : Status)
  | tag (v : Tag)
  | byte (v : Byte)
  | half (v : Half)
  | bytes (v : List Byte)
  deriving DecidableEq, Repr

/-- One interaction of the host with the codec (R5, R175). -/
inductive Request
  /-- Present an operation descriptor (R60). -/
  | issue (descriptor : List Byte)
  /-- Reset, between operations (R190). -/
  | reset
  /-- Read a result register (R47). -/
  | read (r : ResultReg)
  /-- Present two operations at once (R55). -/
  | concurrent (first second : List Byte)
  /-- Reset during an operation (R166, S5). -/
  | resetDuring (descriptor : List Byte)
  deriving DecidableEq, Repr

/-- The faults of the model. -/
inductive Fault
  /-- A host read of a data register that holds no value yet: TXF while TXV = 0, a decoder data register while RXST = IDLE.
  Raised by `readResult`. Safe: the hardware returns some value, and "a model treats such a read as a fault" (R39, S1). -/
  | unspecifiedRead (r : ResultReg)
  deriving DecidableEq, Repr

/-- The refusals of the model. -/
inductive Refusal
  /-- An instruction without a meaning, by its mnemonic. Raised by no arm of `exec`. Safe. -/
  | notModelled (mnemonic : String)
  /-- A reserved operation byte. Raised by `serve` when the decoder rejects one. Safe (R77, S2). -/
  | reservedOperation (op : Byte)
  /-- A descriptor of another length than its operation's: it cannot be presented (R45). Raised by `serve`. Safe (log 10). -/
  | malformedDescriptor (length : Nat)
  /-- An ENC with an opId outside the set where ENC_REFUSE_UNKNOWN_OPID is true. Raised by `encodeCommandWith true`, so by no
  instruction under this spec's value false. Safe (R8, R105). -/
  | unknownOpid (opid : Byte)
  /-- CMD_SET_PERIOD outside 0 to 30, which "the assembler refuses". Raised by `execCmdSetPeriod`; no descriptor decodes to
  such an instruction. Safe (R119, log 12). -/
  | minutesOutOfRange (minutes : Int)
  /-- Two operations at once. Raised by `serve`. Safe (R55, U1). -/
  | concurrentIssue
  /-- Reset during an operation. Raised by `serve`. Safe (R166, S5). -/
  | resetDuringOperation
  deriving DecidableEq, Repr

/-- The machine: the twelve result registers of R20, and the host's side of the port (`inbox`, `hostData`), which is the
model's own (log 1, log 2). -/
structure State where
  /-- TXF[0..18], the last command frame (R22). -/
  txf : Vector Byte 19
  /-- TXV, "TXF holds a frame" (R23). -/
  txv : Bool
  /-- RXST, the outcome of the last DEC (R24). -/
  rxst : Status
  /-- RXTAG, the frame tag of the last DEC (R25). -/
  rxtag : Tag
  /-- RXP[0..5], the payload of the last DEC operand (R26). -/
  rxp : Vector Byte 6
  /-- RXTB, the response-type byte of the last DEC operand (R27). -/
  rxtb : Byte
  /-- RXCSC, the computed checksum (R28). -/
  rxcsc : Byte
  /-- RXCST, the transmitted checksum (R29). -/
  rxcst : Byte
  /-- PM25, tenths of a microgram per cubic metre (R30). -/
  pm25 : Half
  /-- PM10, tenths of a microgram per cubic metre (R30). -/
  pm10 : Half
  /-- DEVID (R31). -/
  devid : Half
  /-- RDV, "PM25, PM10 and DEVID hold a Reading" (R33). -/
  rdv : Bool
  /-- The host's interactions still to come, oldest first (log 1). -/
  inbox : List Request
  /-- What the host's last read returned (log 2). -/
  hostData : Option ReadValue
  deriving DecidableEq, Repr

/-- The machine right after reset (R38, R190): TXV = 0, RXST = IDLE, RXTAG = NONE, RDV = 0. The data registers are
unspecified there; zero is a DESIGN CHOICE (log 3), which no host read can see (R39). -/
def State.reset : State where
  txf := #v[0, 0, 0, 0, 0, 0, 0, 0, 0, 0, 0, 0, 0, 0, 0, 0, 0, 0, 0]
  txv := false
  rxst := Config.rxstIdle
  rxtag := Config.rxtagNone
  rxp := #v[0, 0, 0, 0, 0, 0]
  rxtb := 0
  rxcsc := 0
  rxcst := 0
  pm25 := 0
  pm10 := 0
  devid := 0
  rdv := false
  inbox := []
  hostData := none

end Sys2Proof.Machine
end

