-- ==== Sys2Proof/Machine/Checksum.lean ====
section
/-! DEFINITION. The modulo-256 checksum (40_checksum.md R90 to R93). -/

namespace Sys2Proof.Machine

/-- The exact total of the unsigned byte values (R90). -/
def byteTotal (bs : List Byte) : Nat := (bs.map BitVec.toNat).sum

/-- CSUM: the low 8 bits of the exact total (R90). -/
def csum (bs : List Byte) : Byte := BitVec.ofNat 8 (byteTotal bs % 256)

/-- The folding of 8-bit wrapping addition from 0, the other form R94(b) gives. -/
def csumFold (bs : List Byte) : Byte := bs.foldl (· + ·) 0

/-- The body of a command frame, frame indices 2 to 16: opId, payload, the two addresses (R65). -/
def commandBody (o : Byte) (p : Vector Byte 12) (a b : Byte) : List Byte :=
  [o, p[0], p[1], p[2], p[3], p[4], p[5], p[6], p[7], p[8], p[9], p[10], p[11], a, b]

/-- The checksum of a command frame, over its 15 body bytes (R7, R91). -/
def commandChecksum (o : Byte) (p : Vector Byte 12) (a b : Byte) : Byte := csum (commandBody o p a b)

/-- The checksum expected of a response frame, over its 6 payload bytes (R92). -/
def responseChecksum (raw : Vector Byte 10) : Byte :=
  csum [raw[2], raw[3], raw[4], raw[5], raw[6], raw[7]]

/-- The validator: the transmitted byte equals the computed one (R93). -/
def checksumMatches (raw : Vector Byte 10) : Bool := raw[8] == responseChecksum raw

end Sys2Proof.Machine
end

