-- ==== Sys2Proof/Machine/Operands.lean ====
section
/-! DEFINITION. How operands are put together and taken apart: the two frame spaces (20_memory.md R40, 30_encoding.md R64,
R70) and the little-endian fields (R42, R74). -/

namespace Sys2Proof.Machine

/-- `hi : lo`, the little-endian composition of two bytes, `zext_16(hi) << 8 | zext_16(lo)` (R12, R42, R74). -/
def composeLE (lo hi : Byte) : Half := (hi.zeroExtend 16 <<< 8) ||| lo.zeroExtend 16

/-- PM2.5 of a response frame, bytes 2 and 3 (R72, R136). -/
def rawPm25 (raw : Vector Byte 10) : Half := composeLE raw[2] raw[3]

/-- PM10 of a response frame, bytes 4 and 5 (R72, R136). -/
def rawPm10 (raw : Vector Byte 10) : Half := composeLE raw[4] raw[5]

/-- The device id of a response frame, bytes 6 and 7 (R72, R137). -/
def rawDevid (raw : Vector Byte 10) : Half := composeLE raw[6] raw[7]

/-- The command frame of an ENC's operands (R64, R100). -/
def commandFrame (o : Byte) (p : Vector Byte 12) (a b : Byte) : Vector Byte 19 :=
  #v[Config.hdr, Config.cmdTag, o, p[0], p[1], p[2], p[3], p[4], p[5], p[6], p[7], p[8], p[9], p[10], p[11], a, b,
    commandChecksum o p a b, Config.tail]

/-- A response frame, by its type byte, payload and checksum byte (R70). -/
def responseFrame (type : Byte) (p : Vector Byte 6) (c : Byte) : Vector Byte 10 :=
  #v[Config.hdr, type, p[0], p[1], p[2], p[3], p[4], p[5], c, Config.tail]

/-- `MemRead(addr, n)` on a frame space: the bytes at indices addr to addr+n-1, defined only inside the space (R14, R40). -/
def memRead (space : Vector Byte k) (addr n : Nat) : Option (List Byte) :=
  if addr + n ≤ k then some ((space.toList.drop addr).take n) else none

/-- The list with the bytes `v` written from index `addr` on. -/
def writeList : List Byte → Nat → List Byte → List Byte
  | [], _, _ => []
  | x :: xs, 0, [] => x :: xs
  | _ :: xs, 0, v :: vs => v :: writeList xs 0 vs
  | x :: xs, addr + 1, vs => x :: writeList xs addr vs

/-- `MemWrite(addr, n, v)` on a frame space, defined only inside the space (R14, R40); n is the length of v. -/
def memWrite (space : Vector Byte k) (addr : Nat) (v : List Byte) : Option (Vector Byte k) :=
  if addr + v.length ≤ k then some (Vector.ofFn fun i => (writeList space.toList addr v).getD i.val 0) else none

end Sys2Proof.Machine
end

