-- ==== Sys2Proof/Machine/Flags.lean ====
section
/-! DEFINITION. The status computations of DEC (42_decode.md R131 to R134, R138). The codec has no condition codes (R34). -/

namespace Sys2Proof.Machine

/-- The marker check: both markers are the expected constants (R131). -/
def framed (raw : Vector Byte 10) : Bool := raw[0] == Config.hdr && raw[9] == Config.tail

/-- RXST and RXTAG of a DEC operand: the first failing check in the order markers, checksum, type (R130, R133, R134). -/
def verdict (raw : Vector Byte 10) : Status × Tag :=
  if !framed raw then (Config.rxstErrFraming, Config.rxtagNone)
  else if !checksumMatches raw then (Config.rxstErrChecksum, Config.rxtagNone)
  else if raw[1] == Config.tagData then (Config.rxstOk, Config.rxtagData)
  else if raw[1] == Config.tagSetting then (Config.rxstOk, Config.rxtagSetting)
  else (Config.rxstErrType, Config.rxtagNone)

/-- RDV: 1 exactly for OK and DATA (R33, R138). -/
def readingValid (st : Status) (tag : Tag) : Bool := st == Config.rxstOk && tag == Config.rxtagData

end Sys2Proof.Machine
end

