-- ==== Sys2Proof/Machine/Ops.lean ====
section
/-! DEFINITION. The shared operations over the result registers: latching a command frame (41_encode.md R100), latching a
decoded response (42_decode.md R130), reset (70_reset_and_hazards.md R190) and a host read (10_state.md R39).

TAKING AN EXCEPTION AND RETURNING FROM ONE: the codec has neither. "There is no trap, no exception vector, no interrupt and
no halt" (R160); an erroring DEC "saves nothing beyond the result registers it always writes" (R168) and "there is no
return-from-trap" (R169). A failure is the status `verdict` computes and `latchResponse` writes. -/

namespace Sys2Proof.Machine

/-- The answer of a meaning or of a host interaction. -/
abbrev Answer := Host.Outcome State Fault Refusal

/-- ENC's writes, all together: TXF and TXV (R46, R100). -/
def State.latchFrame (s : State) (frame : Vector Byte 19) : State :=
  { s with txf := frame, txv := true }

/-- DEC's writes, all together and whatever the status (R46, R130, R135). -/
def State.latchResponse (s : State) (raw : Vector Byte 10) : State :=
  { s with
    rxst := (verdict raw).1
    rxtag := (verdict raw).2
    rxp := rawPayload raw
    rxtb := raw[1]
    rxcsc := responseChecksum raw
    rxcst := raw[8]
    pm25 := rawPm25 raw
    pm10 := rawPm10 raw
    devid := rawDevid raw
    rdv := readingValid (verdict raw).1 (verdict raw).2 }

/-- `encodeCommand` under a value of ENC_REFUSE_UNKNOWN_OPID (R8, R100, R105). -/
def encodeCommandWith (refuseUnknown : Bool) (o : Byte) (p : Vector Byte 12) (a b : Byte) (s : State) : Answer :=
  if refuseUnknown && !Config.opidKnown o then .refused (.unknownOpid o)
  else .next (s.latchFrame (commandFrame o p a b))

/-- `encodeCommand` under this spec's value of the parameter (R100). -/
def encodeCommand (o : Byte) (p : Vector Byte 12) (a b : Byte) (s : State) : Answer :=
  encodeCommandWith Config.encRefuseUnknownOpid o p a b s

/-- `encodeCommand` with the default addresses (R102). -/
def encodeDefault (o : Byte) (p : Vector Byte 12) (s : State) : Answer :=
  encodeCommand o p Config.defaultAddr Config.defaultAddr s

/-- `decodeResponse` and `decodeReading` as one operation (R130). It cannot stop: errors are statuses (R160). -/
def decodeResponse (raw : Vector Byte 10) (s : State) : Answer := .next (s.latchResponse raw)

/-- Reset of the result registers (R38, R190): it reads no state. The data registers, unspecified after reset, take the
values `State.reset` names (log 4). The host's side is the host's own and stays. -/
def State.resetRegisters (s : State) : State :=
  { State.reset with inbox := s.inbox, hostData := s.hostData }

/-- Does a register hold a value (R39)? The flags always do (R38). -/
def State.holdsValue (s : State) : ResultReg → Bool
  | .txv | .rxst | .rxtag | .rdv => true
  | .txf | .txfByte _ => s.txv
  | .rxp | .rxpByte _ | .rxtb | .rxcsc | .rxcst | .pm25 | .pm10 | .devid => s.rxst != Config.rxstIdle

/-- The value of a result register, whole (R46). -/
def State.valueOf (s : State) : ResultReg → ReadValue
  | .txf => .bytes s.txf.toList
  | .txv => .flag s.txv
  | .rxst => .status s.rxst
  | .rxtag => .tag s.rxtag
  | .rxp => .bytes s.rxp.toList
  | .rxtb => .byte s.rxtb
  | .rxcsc => .byte s.rxcsc
  | .rxcst => .byte s.rxcst
  | .pm25 => .half s.pm25
  | .pm10 => .half s.pm10
  | .devid => .half s.devid
  | .rdv => .flag s.rdv
  | .txfByte i => .byte s.txf[i]
  | .rxpByte i => .byte s.rxp[i]

/-- A read's value on the host's side of the port; no register changes (R47). -/
def State.deliver (s : State) (v : ReadValue) : State := { s with hostData := some v }

/-- A host read: the register's value and no side effect (R47), or the fault of R39. -/
def readResult (r : ResultReg) (s : State) : Answer :=
  if s.holdsValue r then .next (s.deliver (s.valueOf r)) else .fault (.unspecifiedRead r)

end Sys2Proof.Machine
end

