-- ==== Sys2Proof/Machine/Builders.lean ====
section
/-! DEFINITION. The command builders, each one ENCB with a fixed payload (41_encode.md section 2, R110 to R119). -/

namespace Sys2Proof.Machine

/-- CMD_GET_MODE (R110). -/
def execCmdGetMode (s : State) : Answer :=
  encodeDefault Config.opMode (settingPayload Config.subRead 0x00) s

/-- CMD_SET_MODE ACTIVE (R111). -/
def execCmdSetModeActive (s : State) : Answer :=
  encodeDefault Config.opMode (settingPayload Config.subWrite Config.modeActive) s

/-- CMD_SET_MODE QUERY (R112). -/
def execCmdSetModeQuery (s : State) : Answer :=
  encodeDefault Config.opMode (settingPayload Config.subWrite Config.modeQuery) s

/-- CMD_QUERY (R113). -/
def execCmdQuery (s : State) : Answer := encodeDefault Config.opQuery zeroPayload s

/-- CMD_SET_ID (R114). -/
def execCmdSetId (p : Vector Byte 12) (s : State) : Answer := encodeDefault Config.opSetId p s

/-- CMD_GET_SLEEP (R115). -/
def execCmdGetSleep (s : State) : Answer :=
  encodeDefault Config.opSleep (settingPayload Config.subRead 0x00) s

/-- CMD_SLEEP (R116). -/
def execCmdSleep (s : State) : Answer :=
  encodeDefault Config.opSleep (settingPayload Config.subWrite Config.sleepSleep) s

/-- CMD_WORK (R117). -/
def execCmdWork (s : State) : Answer :=
  encodeDefault Config.opSleep (settingPayload Config.subWrite Config.sleepWork) s

/-- CMD_GET_PERIOD (R118). -/
def execCmdGetPeriod (s : State) : Answer :=
  encodeDefault Config.opPeriod (settingPayload Config.subRead 0x00) s

/-- CMD_SET_PERIOD n (R119). "the assembler refuses n < 0 or n > 30": such a term has no meaning (log 12). -/
def execCmdSetPeriod (minutes : Int) (s : State) : Answer :=
  if minutesAdmitted minutes then
    encodeDefault Config.opPeriod (settingPayload Config.subWrite (minutesByte minutes)) s
  else .refused (.minutesOutOfRange minutes)

end Sys2Proof.Machine
end

