-- ==== Sys2Proof/Machine/Decoder.lean ====
section
/-! DEFINITION. The decoder: DEC and the two response-frame rows (42_decode.md R130 to R140). -/

namespace Sys2Proof.Machine

/-- DEC (R130). -/
def execDec (raw : Vector Byte 10) (s : State) : Answer := decodeResponse raw s

/-- RSP_DATA: the DEC of a frame of that row (R70, R79, R130). -/
def execRspData (p : Vector Byte 6) (c : Byte) (s : State) : Answer :=
  decodeResponse (responseFrame Config.tagData p c) s

/-- RSP_SETTING: the DEC of a frame of that row (R70, R79, R130). -/
def execRspSetting (p : Vector Byte 6) (c : Byte) (s : State) : Answer :=
  decodeResponse (responseFrame Config.tagSetting p c) s

end Sys2Proof.Machine
end

