-- ==== Sys2Proof/Machine/Encoder.lean ====
section
/-! DEFINITION. The encoder: ENC, its pseudo-instruction ENCB and the generic command frame (41_encode.md R100 to R105). -/

namespace Sys2Proof.Machine

/-- ENC (R100). -/
def execEnc (o : Byte) (p : Vector Byte 12) (a b : Byte) (s : State) : Answer := encodeCommand o p a b s

/-- ENCB: ENC with A1 = A2 = 0xFF (R102). -/
def execEncb (o : Byte) (p : Vector Byte 12) (s : State) : Answer := encodeDefault o p s

/-- CMD_FRAME: the ENC that produces the frame with these fields (R64, R79, R100). -/
def execCmdFrame (o : Byte) (p : Vector Byte 12) (a b : Byte) (s : State) : Answer := encodeCommand o p a b s

end Sys2Proof.Machine
end

