-- ==== Sys2Proof/Machine/Idle.lean ====
section
/-! DEFINITION. NOP (42_decode.md R150). -/

namespace Sys2Proof.Machine

/-- NOP writes no register (R150). -/
def execNop (s : State) : Answer := .next s

end Sys2Proof.Machine
end

