-- ==== Sys2Proof/Machine/Dispatch.lean ====
section
/-! DEFINITION. One arm per instruction. -/

namespace Sys2Proof.Machine

def exec (i : Instr) (s : State) : Host.Outcome State Fault Refusal :=
  match i with
  | .nop => Sys2Proof.Machine.execNop s
  | .enc o p a b => Sys2Proof.Machine.execEnc o p a b s
  | .dec raw => Sys2Proof.Machine.execDec raw s
  | .encb o p => Sys2Proof.Machine.execEncb o p s
  | .cmdFrame o p a b => Sys2Proof.Machine.execCmdFrame o p a b s
  | .cmdGetMode => Sys2Proof.Machine.execCmdGetMode s
  | .cmdSetModeActive => Sys2Proof.Machine.execCmdSetModeActive s
  | .cmdSetModeQuery => Sys2Proof.Machine.execCmdSetModeQuery s
  | .cmdQuery => Sys2Proof.Machine.execCmdQuery s
  | .cmdSetId p => Sys2Proof.Machine.execCmdSetId p s
  | .cmdGetSleep => Sys2Proof.Machine.execCmdGetSleep s
  | .cmdSleep => Sys2Proof.Machine.execCmdSleep s
  | .cmdWork => Sys2Proof.Machine.execCmdWork s
  | .cmdGetPeriod => Sys2Proof.Machine.execCmdGetPeriod s
  | .cmdSetPeriod minutes => Sys2Proof.Machine.execCmdSetPeriod minutes s
  | .rspData p c => Sys2Proof.Machine.execRspData p c s
  | .rspSetting p c => Sys2Proof.Machine.execRspSetting p c s

end Sys2Proof.Machine
end

