-- ==== Sys2Proof/Machine/HostPort.lean ====
section
/-! DEFINITION. The host port (60_exceptions.md R175, 20_memory.md R50): which interaction is next, and what each one does. -/

namespace Sys2Proof.Machine

/-- The idle value of the operation-select field is NOP (R150): what the codec is presented with when the host presents
nothing. -/
def idleRequest : Request := .issue [opNop]

/-- The interaction the codec is presented with next: the oldest one the host has pending (R50). -/
def State.request (s : State) : Request := s.inbox.headD idleRequest

/-- The state with that interaction taken from the port. -/
def State.consume (s : State) : State := { s with inbox := s.inbox.tail }

/-- The refusal of a descriptor the decoder rejects (R45, R77). -/
def refusalOf (descriptor : List Byte) : DecodeError → Refusal
  | .empty => .malformedDescriptor descriptor.length
  | .reserved op => .reservedOperation op
  | .truncated _ => .malformedDescriptor descriptor.length

/-- Run the operation of a presented descriptor: exactly one, with no byte left over (R9, R60, R75). -/
def issue (descriptor : List Byte) (s : State) : Answer :=
  match decode descriptor with
  | .instr i [] => exec i s
  | .instr _ (_ :: _) => .refused (.malformedDescriptor descriptor.length)
  | .rejected e => .refused (refusalOf descriptor e)

/-- What one host interaction does (R175). -/
def serve : Request → State → Answer
  | .issue d, s => issue d s
  | .reset, s => .next s.resetRegisters
  | .read r, s => readResult r s
  | .concurrent _ _, _ => .refused .concurrentIssue
  | .resetDuring _, _ => .refused .resetDuringOperation

/-- Put an interaction in front of the host's pending ones. -/
def State.present (s : State) (r : Request) : State := { s with inbox := r :: s.inbox }

end Sys2Proof.Machine
end

