-- ==== Sys2Proof/Machine/Step.lean ====
section
/-! DEFINITION. One step: the codec takes the host's next interaction and performs it whole (00_scope.md R5, R10;
20_memory.md R46, R50). -/

namespace Sys2Proof.Machine

def step (s : State) : Host.Outcome State Fault Refusal := serve s.request s.consume

/-- The state in which the host presents the operation a table word spells (log 1, log 7). -/
def State.withFetchWord (s : State) (nbits w : Nat) : State := s.present (.issue (descriptorOfWord nbits w))

end Sys2Proof.Machine
end

