-- ==== Sys2Proof/Machine/Assembler.lean ====
section
/-! DEFINITION. The assembler's forms as terms (30_encoding.md R78): which lines it admits, and the instruction each one is.
The text of a line is not parsed (log 13). -/

namespace Sys2Proof.Machine

/-- An item of a bracketed list: a byte, or `b*n`, n copies of one (R78). -/
inductive ListItem
  | byte (b : Byte)
  | copies (b : Byte) (n : Nat)
  deriving DecidableEq, Repr

/-- The bytes of a bracketed list. -/
def listBytes (items : List ListItem) : List Byte :=
  items.flatMap fun
    | .byte b => [b]
    | .copies b n => List.replicate n b

/-- A line of the assembler (R78). -/
inductive AsmLine
  | nop
  | enc (opid : Byte) (payload : List ListItem) (addr1 addr2 : Byte)
  | encb (opid : Byte) (payload : List ListItem)
  | dec (raw : List ListItem)
  | cmdGetMode
  | cmdSetModeActive
  | cmdSetModeQuery
  | cmdQuery
  | cmdSetId (payload : List ListItem)
  | cmdGetSleep
  | cmdSleep
  | cmdWork
  | cmdGetPeriod
  | cmdSetPeriod (minutes : Int)
  deriving DecidableEq, Repr

/-- What the assembler refuses (R78, R119). -/
inductive AsmError
  | payloadLength (n : Nat)
  | rawLength (n : Nat)
  | minutesRange (minutes : Int)
  deriving DecidableEq, Repr

/-- What the assembler answers. -/
inductive Assembled
  | instr (i : Instr)
  | refused (e : AsmError)
  deriving DecidableEq, Repr

/-- "refuses a payload list that is not exactly 12 bytes" (R78). -/
def withPayload (items : List ListItem) (f : Vector Byte 12 → Instr) : Assembled :=
  match listBytes items with
  | [p0, p1, p2, p3, p4, p5, p6, p7, p8, p9, p10, p11] =>
    .instr (f #v[p0, p1, p2, p3, p4, p5, p6, p7, p8, p9, p10, p11])
  | bs => .refused (.payloadLength bs.length)

/-- "refuses ... a raw list that is not exactly 10 bytes" (R78). -/
def withRaw (items : List ListItem) (f : Vector Byte 10 → Instr) : Assembled :=
  match listBytes items with
  | [r0, r1, r2, r3, r4, r5, r6, r7, r8, r9] => .instr (f #v[r0, r1, r2, r3, r4, r5, r6, r7, r8, r9])
  | bs => .refused (.rawLength bs.length)

/-- Assemble one line. -/
def assemble : AsmLine → Assembled
  | .nop => .instr .nop
  | .enc o p a b => withPayload p fun v => .enc o v a b
  | .encb o p => withPayload p fun v => .encb o v
  | .dec r => withRaw r .dec
  | .cmdGetMode => .instr .cmdGetMode
  | .cmdSetModeActive => .instr .cmdSetModeActive
  | .cmdSetModeQuery => .instr .cmdSetModeQuery
  | .cmdQuery => .instr .cmdQuery
  | .cmdSetId p => withPayload p .cmdSetId
  | .cmdGetSleep => .instr .cmdGetSleep
  | .cmdSleep => .instr .cmdSleep
  | .cmdWork => .instr .cmdWork
  | .cmdGetPeriod => .instr .cmdGetPeriod
  | .cmdSetPeriod n =>
    if minutesAdmitted n then .instr (.cmdSetPeriod n) else .refused (.minutesRange n)

/-- The host's interactions for a list of lines, one operation each, none where a line is refused. -/
def assembleProgram : List AsmLine → Option (List Request)
  | [] => some []
  | l :: ls =>
    match assemble l, assembleProgram ls with
    | .instr i, some rs => some (.issue (encode i) :: rs)
    | _, _ => none

end Sys2Proof.Machine
end

