-- ==== Sys2Proof/Machine/HostView.lean ====
section
/-! DEFINITION. What a host reads off the codec's registers (42_decode.md R139, 60_exceptions.md R165, R178, R179, R181), and what
the hardware may return to a host read (10_state.md R39). No rule of the codec depends on these (log 14, log 15). -/

namespace Sys2Proof.Machine

/-! ## Reads on the hardware -/

/-- Is a value of a register's own width (R20, R46)? -/
def ResultReg.fits : ResultReg → ReadValue → Bool
  | .txf, .bytes v => v.length == 19
  | .rxp, .bytes v => v.length == 6
  | .txv, .flag _ => true
  | .rdv, .flag _ => true
  | .rxst, .status _ => true
  | .rxtag, .tag _ => true
  | .rxtb, .byte _ => true
  | .rxcsc, .byte _ => true
  | .rxcst, .byte _ => true
  | .txfByte _, .byte _ => true
  | .rxpByte _, .byte _ => true
  | .pm25, .half _ => true
  | .pm10, .half _ => true
  | .devid, .half _ => true
  | _, _ => false

/-- May the hardware return this value to a host read? The register's own once it holds one; before its unit's first write "an
unspecified value on the hardware" (R39, R203), "`any value`" (S1): any of the register's width. The model faults there. -/
def State.hardwareReturns (s : State) (r : ResultReg) (v : ReadValue) : Bool :=
  r.fits v && (!s.holdsValue r || v == s.valueOf r)

/-! ## Statuses, Readings and work periods -/

/-- The source's error kinds a codec status maps to (R165). -/
inductive HostError
  | checksumError
  | protocolError
  deriving DecidableEq, Repr

/-- "maps ERR_CHECKSUM to `ChecksumError` and ERR_FRAMING and ERR_TYPE to `ProtocolError`" (R165). OK
is the success of `decodeResponse` (R24) and no error. For IDLE, no DEC since reset, none is the model's choice (log 19,
DESIGN CHOICE). -/
def hostError (st : Status) : Option HostError :=
  if st = Config.rxstErrChecksum then some .checksumError
  else if st = Config.rxstErrFraming ∨ st = Config.rxstErrType then some .protocolError
  else none

/-- The source's Reading, in exact micrograms per cubic metre (R139). -/
structure Reading where
  pm25 : Rat
  pm10 : Rat
  deriving DecidableEq, Repr

/-- The Reading the registers hold: only while RDV = 1 (R138), each value the register divided by ten exactly (R139). -/
def State.reading (s : State) : Option Reading :=
  if s.rdv then some { pm25 := (s.pm25.toNat : Rat) / 10, pm10 := (s.pm10.toNat : Rat) / 10 } else none

/-- What the host accepts after CMD_QUERY: RXST = OK with RXTAG = DATA (R179). -/
def State.acceptsReading (s : State) : Bool := s.rxst == Config.rxstOk && s.rxtag == Config.rxtagData

/-- The error the host reports for the reply to CMD_QUERY, none when it accepts: "a SETTING-tagged reply received here is itself
treated as a protocol error" (R179), and an error status is mapped by R165 (log 14, DEDUCED). R179
speaks of a DEC result; with none since reset (RXST = IDLE) the answer none, which is no acceptance, is the model's choice (log 19, DESIGN CHOICE). -/
def State.queryReplyError (s : State) : Option HostError :=
  if s.acceptsReading then none
  else if s.rxst = Config.rxstOk then some .protocolError
  else hostError s.rxst

/-- The error the host reports for the reply to a configuration command with this opId, none when the result is OK with RXTAG =
SETTING and the payload's operation-id field is the opId (R178). The field's payload index is not in the source (N3), so it is
an argument. An error status is mapped by R165 (log 14, DEDUCED). R178 speaks of the DEC
result; with none since reset (RXST = IDLE) the answer none, which is no acceptance, is the model's choice (log 19, DESIGN CHOICE). -/
def State.settingReplyError (s : State) (index : Fin 6) (opid : Byte) : Option HostError :=
  if s.rxst = Config.rxstOk then
    if s.rxtag = Config.rxtagSetting ∧ s.rxp[index] = opid then none else some .protocolError
  else hostError s.rxst

/-- The host's clamp of a work period, and whether it gives the `ConfigError::Clamped` notice (R181). -/
def clampMinutes (minutes : Int) : Int × Bool :=
  if minutes < 0 then (0, true)
  else if minutes > Config.workPeriodMax then (Config.workPeriodMax, true)
  else (minutes, false)

end Sys2Proof.Machine
end

