-- ==== Sys2Proof/Safety.lean ====
section
/-! DEFINITION. The terms claims are stated in: the two units' registers (10_state.md R36), what a state of the codec looks
like between operations (`State.Coherent`), what the host may present (`State.admits`), and runs over many interactions. -/

namespace Sys2Proof.Machine

/-! ## The two units -/

/-- The encoder-side registers (R20, R22, R23). -/
structure EncoderSide where
  txf : Vector Byte 19
  txv : Bool
  deriving DecidableEq, Repr

/-- The decoder-side registers (R20, R24 to R33). -/
structure DecoderSide where
  rxst  : Status
  rxtag : Tag
  rxp   : Vector Byte 6
  rxtb  : Byte
  rxcsc : Byte
  rxcst : Byte
  pm25  : Half
  pm10  : Half
  devid : Half
  rdv   : Bool
  deriving DecidableEq, Repr

/-- The host's side of the port (log 1, log 2). -/
structure HostSide where
  inbox    : List Request
  hostData : Option ReadValue
  deriving DecidableEq, Repr

def State.encoderSide (s : State) : EncoderSide := { txf := s.txf, txv := s.txv }

def State.decoderSide (s : State) : DecoderSide where
  rxst := s.rxst
  rxtag := s.rxtag
  rxp := s.rxp
  rxtb := s.rxtb
  rxcsc := s.rxcsc
  rxcst := s.rxcst
  pm25 := s.pm25
  pm10 := s.pm10
  devid := s.devid
  rdv := s.rdv

def State.hostSide (s : State) : HostSide := { inbox := s.inbox, hostData := s.hostData }

/-! ## Coherent states -/

/-- RXST never holds 5, 6 or 7 and RXTAG never holds 3 (R24, R25, S3). -/
abbrev State.CodesLegal (s : State) : Prop :=
  (s.rxst = Config.rxstIdle ∨ s.rxst = Config.rxstOk ∨ s.rxst = Config.rxstErrFraming ∨
    s.rxst = Config.rxstErrChecksum ∨ s.rxst = Config.rxstErrType) ∧
  (s.rxtag = Config.rxtagNone ∨ s.rxtag = Config.rxtagData ∨ s.rxtag = Config.rxtagSetting)

/-- "RXTAG is DATA or SETTING exactly when RXST = OK, and NONE otherwise" (R25). -/
abbrev State.TagFollowsStatus (s : State) : Prop :=
  (s.rxtag = Config.rxtagData ∨ s.rxtag = Config.rxtagSetting) ↔ s.rxst = Config.rxstOk

/-- RDV is 1 exactly for OK and DATA (R33, R138). -/
abbrev State.ReadingFlagRight (s : State) : Prop :=
  s.rdv = true ↔ (s.rxst = Config.rxstOk ∧ s.rxtag = Config.rxtagData)

/-- While TXV = 1, TXF is a command frame: its markers, its command-id and the checksum of its body (R64, R65, R101). -/
abbrev State.FrameHeld (s : State) : Prop :=
  s.txv = true → s.txf[0] = Config.hdr ∧ s.txf[1] = Config.cmdTag ∧ s.txf[18] = Config.tail ∧
    s.txf[17] = csum ((s.txf.toList.drop 2).take 15)

/-- Once a DEC has run, the reading registers are the payload's fields and RXCSC is the payload's checksum (R28, R30, R31). -/
abbrev State.FieldsHeld (s : State) : Prop :=
  s.rxst ≠ Config.rxstIdle → s.pm25 = composeLE s.rxp[0] s.rxp[1] ∧ s.pm10 = composeLE s.rxp[2] s.rxp[3] ∧
    s.devid = composeLE s.rxp[4] s.rxp[5] ∧ s.rxcsc = csum s.rxp.toList

/-- The status agrees with what the captured bytes show (R132, R133, R161 to R163). -/
abbrev State.VerdictHeld (s : State) : Prop :=
  (s.rxst = Config.rxstOk → s.rxcst = s.rxcsc) ∧
  (s.rxtag = Config.rxtagData → s.rxtb = Config.tagData) ∧
  (s.rxtag = Config.rxtagSetting → s.rxtb = Config.tagSetting) ∧
  (s.rxst = Config.rxstErrChecksum → s.rxcst ≠ s.rxcsc) ∧
  (s.rxst = Config.rxstErrType → s.rxcst = s.rxcsc ∧ s.rxtb ≠ Config.tagData ∧ s.rxtb ≠ Config.tagSetting)

/-- The invariant of the codec: every rule of 10_state.md that relates its registers between operations. -/
abbrev State.Coherent (s : State) : Prop :=
  s.CodesLegal ∧ s.TagFollowsStatus ∧ s.ReadingFlagRight ∧ s.FrameHeld ∧ s.FieldsHeld ∧ s.VerdictHeld

/-! ## What the host may present -/

/-- A descriptor spells one operation and nothing more (R60 to R63, R75, R77). -/
def spellsOperation (d : List Byte) : Bool :=
  match d with
  | [] => false
  | op :: _ => descriptorLength op == some d.length

/-- An interaction the spec gives an effect in this state: an operation, a reset, or a read of a register that holds a value
(R39, R55, R77, R164, R166). -/
def State.admits (s : State) : Request → Bool
  | .issue d => spellsOperation d
  | .reset => true
  | .read r => s.holdsValue r
  | .concurrent _ _ => false
  | .resetDuring _ => false

/-- Does an interaction reach the decoder side: a DEC, or reset (R36)? -/
def Request.reachesDecoder : Request → Bool
  | .issue d =>
    match d with
    | [] => false
    | op :: _ => op == opDec
  | .reset => true
  | .read _ => false
  | .concurrent _ _ => false
  | .resetDuring _ => false

/-- Does an interaction reach the encoder side: an ENC, or reset (R36)? -/
def Request.reachesEncoder : Request → Bool
  | .issue d =>
    match d with
    | [] => false
    | op :: _ => op == opEnc
  | .reset => true
  | .read _ => false
  | .concurrent _ _ => false
  | .resetDuring _ => false

/-- The state with the host about to present exactly these interactions. -/
def State.withInbox (s : State) (rs : List Request) : State := { s with inbox := rs }

/-- `k` steps, stopping at the first fault or refusal: `Host.Core.run` of this machine (Laws/Step.lean, `core_run_eq`). -/
def runSteps : Nat → State → Answer
  | 0, s => .next s
  | k + 1, s =>
    match step s with
    | .next t => runSteps k t
    | .fault f => .fault f
    | .refused q => .refused q

/-- The run of the codec over a list of interactions, one step each. -/
def runOver (rs : List Request) (s : State) : Answer := runSteps rs.length (s.withInbox rs)

end Sys2Proof.Machine
end

