-- ==== Sys2Proof/Certificates/Slice0/Obligations.lean ====
section
/-! DEFINITION. The statements for the provers. Rule numbers are those of spec/. -/

open Sys2Proof Sys2Proof.Machine

/-! ## Encoding -/

/-- R61, R62, R63: the bytes of the three descriptors, byte 0 first. -/
def Obligations.DescriptorLayouts : Prop :=
  encode .nop = [0x00] ∧ (∀ rest, decode (0x00 :: rest) = .instr .nop rest) ∧
  (∀ (o : Byte) (p : Vector Byte 12) (a b : Byte), encode (.enc o p a b) =
    [0x01, o, p[0], p[1], p[2], p[3], p[4], p[5], p[6], p[7], p[8], p[9], p[10], p[11], a, b]) ∧
  (∀ o p0 p1 p2 p3 p4 p5 p6 p7 p8 p9 p10 p11 a b : Byte, ∃ i,
    decode [0x01, o, p0, p1, p2, p3, p4, p5, p6, p7, p8, p9, p10, p11, a, b] = .instr i [] ∧
    i.expand = .enc o #v[p0, p1, p2, p3, p4, p5, p6, p7, p8, p9, p10, p11] a b) ∧
  (∀ raw : Vector Byte 10, encode (.dec raw) =
    ([0x02, raw[0], raw[1], raw[2], raw[3], raw[4], raw[5], raw[6], raw[7], raw[8], raw[9]] : List Byte)) ∧
  (∀ r0 r1 r2 r3 r4 r5 r6 r7 r8 r9 : Byte, ∃ i,
    decode [0x02, r0, r1, r2, r3, r4, r5, r6, r7, r8, r9] = .instr i [] ∧
    i.expand = .dec #v[r0, r1, r2, r3, r4, r5, r6, r7, r8, r9])

/-- Words written out from R60 to R63, R68 and R70, one or two of each family. The names are those of the most specific row
(log 5, DEDUCED from R79). -/
def Obligations.SampleWordsDecode : Prop :=
  decode [0x00] = .instr .nop [] ∧
  decode [0x01, 0x04, 0, 0, 0, 0, 0, 0, 0, 0, 0, 0, 0, 0, 0x12, 0x34] =
    .instr (.enc 0x04 #v[0, 0, 0, 0, 0, 0, 0, 0, 0, 0, 0, 0] 0x12 0x34) [] ∧
  decode [0x01, 0x03, 0, 0, 0, 0, 0, 0, 0, 0, 0, 0, 0, 0, 0xFF, 0xFF] =
    .instr (.encb 0x03 #v[0, 0, 0, 0, 0, 0, 0, 0, 0, 0, 0, 0]) [] ∧
  decode [0x01, 0x06, 0x01, 0x01, 0, 0, 0, 0, 0, 0, 0, 0, 0, 0, 0xFF, 0xFF] = .instr .cmdWork [] ∧
  decode [0x01, 0x08, 0x01, 0x1E, 0, 0, 0, 0, 0, 0, 0, 0, 0, 0, 0xFF, 0xFF] = .instr (.cmdSetPeriod 30) [] ∧
  decode [0x02, 0, 0, 0, 0, 0, 0, 0, 0, 0, 0] = .instr (.dec #v[0, 0, 0, 0, 0, 0, 0, 0, 0, 0]) [] ∧
  decode [0x02, 0xAA, 0xC0, 0xD4, 0x04, 0x3A, 0x0A, 0xDB, 0x0A, 0x01, 0xAB] =
    .instr (.rspData #v[0xD4, 0x04, 0x3A, 0x0A, 0xDB, 0x0A] 0x01) [] ∧
  decode [0x05, 0x00] = .rejected (.reserved 0x05)

/-- R77: a reserved operation byte is refused; everything else the rule lists is a legal operation, with the result it gives;
and every operation byte is one of the three or reserved. -/
def Obligations.ReservedAndLegalEncodings : Prop :=
  (∀ (op : Byte) (rest : List Byte) (s : State), opsel op = 3 ∨ mbz op ≠ 0 →
    step (s.present (.issue (op :: rest))) = .refused (.reservedOperation op)) ∧
  (∀ o p a b (s : State), Config.opidKnown o = false →
    exec (.enc o p a b) s = .next (s.latchFrame (commandFrame o p a b)) ∧
    encodeCommandWith true o p a b s = .refused (.unknownOpid o)) ∧
  (∀ raw (s : State), raw[0] ≠ 0xAA ∨ raw[9] ≠ 0xAB → ∃ t, exec (.dec raw) s = .next t ∧ t.rxst = 2) ∧
  (∀ raw (s : State), raw[0] = 0xAA → raw[9] = 0xAB → raw[8] ≠ csum [raw[2], raw[3], raw[4], raw[5], raw[6], raw[7]] →
    ∃ t, exec (.dec raw) s = .next t ∧ t.rxst = 3) ∧
  (∀ raw (s : State), raw[0] = 0xAA → raw[9] = 0xAB → raw[8] = csum [raw[2], raw[3], raw[4], raw[5], raw[6], raw[7]] →
    raw[1] ≠ 0xC0 → raw[1] ≠ 0xC5 → ∃ t, exec (.dec raw) s = .next t ∧ t.rxst = 4) ∧
  (∀ op : Byte, (op = 0x00 ∨ op = 0x01 ∨ op = 0x02) ↔ ¬ (opsel op = 3 ∨ mbz op ≠ 0))

/-- R75's descriptor lengths: bytes spell exactly one operation if and only if their number is the one the operation byte
tells. -/
def Obligations.DescriptorLengthIsExact : Prop :=
  ∀ d : List Byte, spellsOperation d = true ↔ ∃ i, decode d = .instr i []

/-- The decoder gives back every well-formed instruction's words under the name of its most specific row, with the same
operands (R60 to R63, R79; the naming is log 5). -/
def Obligations.DecodeOfEncodeIsTheCanonicalName : Prop :=
  ∀ (i : Instr) (rest : List Byte), i.wellFormed = true →
    decode (encode i ++ rest) = .instr i.canonical rest ∧ i.canonical.expand = i.expand

/-- Every instruction that no more specific row names comes back from its words as itself, for every value of its operands.
That builders, ENCB and the response rows come back under their own names is the model's naming (log 5, log 18, DEDUCED from
R79); CMD_FRAME is another name of ENC's words and comes back under that name (log 6, DEDUCED). -/
def Obligations.EveryOperandSurvivesTheRoundTrip : Prop :=
  decode (encode .nop) = .instr .nop [] ∧
  (∀ o p a b, a ≠ 0xFF ∨ b ≠ 0xFF → decode (encode (.enc o p a b)) = .instr (.enc o p a b) [] ∧
    decode (encode (.cmdFrame o p a b)) = .instr (.enc o p a b) []) ∧
  (∀ o p, (∀ r ∈ builderRows, r.covers (commandFrame o p 0xFF 0xFF).toList = false) →
    decode (encode (.encb o p)) = .instr (.encb o p) []) ∧
  (∀ raw, (∀ r ∈ responseRows, r.covers raw.toList = false) → decode (encode (.dec raw)) = .instr (.dec raw) []) ∧
  (∀ p, decode (encode (.cmdSetId p)) = .instr (.cmdSetId p) []) ∧
  (∀ n : Int, 0 ≤ n → n ≤ 30 → decode (encode (.cmdSetPeriod n)) = .instr (.cmdSetPeriod n) []) ∧
  (∀ i ∈ [Instr.cmdGetMode, .cmdSetModeActive, .cmdSetModeQuery, .cmdQuery, .cmdGetSleep, .cmdSleep, .cmdWork,
    .cmdGetPeriod], decode (encode i) = .instr i []) ∧
  (∀ p c, decode (encode (.rspData p c)) = .instr (.rspData p c) []) ∧
  (∀ p c, decode (encode (.rspSetting p c)) = .instr (.rspSetting p c) [])

/-- The other direction: whatever the decoder accepts is well formed, and its encoding is exactly the bytes it was read from
(R60 to R63, R75). That its name is canonical, and a CMD_SET_PERIOD among the names well formed, rests on the model's naming
(log 5, DEDUCED from R79 and R119). -/
def Obligations.EncodeOfDecodeIsTheBytes : Prop :=
  ∀ (bs rest : List Byte) (i : Instr), decode bs = .instr i rest →
    i.wellFormed = true ∧ encode i ++ rest = bs ∧ i.canonical = i

/-- R79: "no two builder rows match the same frame", every builder's frame also matches CMD_FRAME with fewer mask bits, and
no frame matches both response rows. -/
def Obligations.TableRowsAreUnambiguous : Prop :=
  (∀ r₁ ∈ builderRows, ∀ r₂ ∈ builderRows, ∀ f, r₁.covers f = true → r₂.covers f = true → r₁ = r₂) ∧
  (∀ r ∈ builderRows, ∀ f, r.covers f = true → cmdFrameRow.covers f = true ∧ cmdFrameRow.maskBits < r.maskBits) ∧
  (∀ r₁ ∈ responseRows, ∀ r₂ ∈ responseRows, ∀ f, r₁.covers f = true → r₂.covers f = true → r₁ = r₂)

/-- The table's own naming (R79) of the frame an instruction leaves in TXF, or consumes, is the instruction's row. -/
def Obligations.TableRowNamesTheFrame : Prop :=
  (∀ i ∈ [Instr.cmdGetMode, .cmdSetModeActive, .cmdSetModeQuery, .cmdQuery, .cmdGetSleep, .cmdSleep, .cmdWork,
    .cmdGetPeriod], ∀ s t : State, exec i s = .next t → nameFrame t.txf.toList = some i.row) ∧
  (∀ p (s t : State), exec (.cmdSetId p) s = .next t → nameFrame t.txf.toList = some .cmdSetId) ∧
  (∀ n (s t : State), exec (.cmdSetPeriod n) s = .next t → nameFrame t.txf.toList = some .cmdSetPeriod) ∧
  (∀ o p a b (s t : State), a ≠ 0xFF ∨ b ≠ 0xFF → exec (.enc o p a b) s = .next t →
    nameFrame t.txf.toList = some .cmdFrame) ∧
  (∀ p c, nameFrame (responseFrame 0xC0 p c).toList = some .rspData) ∧
  (∀ p c, nameFrame (responseFrame 0xC5 p c).toList = some .rspSetting)

/-- R79's rows of kind `operation` and `pseudo`: an operation row covers exactly its own operation byte, so the three cover exactly
0x00, 0x01 and 0x02, the bytes that are not reserved (R60, R77); and ENCB's row covers, of all byte sequences, exactly the ENC
descriptors whose two address bytes are 0xFF. -/
def Obligations.OperationAndPseudoRowsCover : Prop :=
  operationRows.map TableRow.row = [.nop, .enc, .dec] ∧ encbRow.row = .encb ∧
  (∀ x ∈ [(Row.nop, (0x00 : Byte)), (.enc, 0x01), (.dec, 0x02)], ∀ f,
    (∃ r ∈ operationRows, r.row = x.1 ∧ r.covers f = true) ↔ f = [x.2]) ∧
  (∀ f, (∃ r ∈ operationRows, r.covers f = true) ↔ (f = [0x00] ∨ f = [0x01] ∨ f = [0x02])) ∧
  (∀ op : Byte, (∃ r ∈ operationRows, r.covers [op] = true) ↔ ¬ (opsel op = 3 ∨ mbz op ≠ 0)) ∧
  (∀ o p a b, encbRow.covers (encode (.enc o p a b)) = true ↔ (a = 0xFF ∧ b = 0xFF)) ∧
  (∀ f, encbRow.covers f = true ↔ ∃ o p, f = encode (.encb o p))

/-! ## The step -/

/-- A step runs the instruction the presented descriptor spells, in the state with that interaction taken from the port; with
nothing presented the operation-select field idles at NOP (R150, log 1). -/
def Obligations.StepRunsTheDecodedInstruction : Prop :=
  (∀ (s : State) d rest i, s.inbox = .issue d :: rest → decode d = .instr i [] →
    step s = exec i { s with inbox := rest }) ∧
  (∀ s : State, s.inbox = [] → step s = .next s) ∧
  (∀ (s : State) nbits w i, decode (descriptorOfWord nbits w) = .instr i [] →
    step (s.withFetchWord nbits w) = exec i s)

/-- What a step does with the host's other interactions: reset between operations; a concurrent issue and a reset during an
operation are refused (R55, R166, R190). That reset leaves the data registers at the values of State.reset (log 3, log 4) and
the host's last read value as it was (log 2) is the model's choice (DESIGN CHOICE). -/
def Obligations.StepServesTheOtherInteractions : Prop :=
  (∀ (s : State) rest, s.inbox = .reset :: rest → step s = .next { s with
    txf := State.reset.txf, txv := State.reset.txv, rxst := State.reset.rxst, rxtag := State.reset.rxtag
    rxp := State.reset.rxp, rxtb := State.reset.rxtb, rxcsc := State.reset.rxcsc, rxcst := State.reset.rxcst
    pm25 := State.reset.pm25, pm10 := State.reset.pm10, devid := State.reset.devid, rdv := State.reset.rdv
    inbox := rest }) ∧
  (∀ (s : State) d₁ d₂ rest, s.inbox = .concurrent d₁ d₂ :: rest → step s = .refused .concurrentIssue) ∧
  (∀ (s : State) d rest, s.inbox = .resetDuring d :: rest → step s = .refused .resetDuringOperation)

/-! ## Checksum -/

/-- R90: the exact total modulo 256, its corner cases, and the bound that keeps a 12-bit accumulator from overflowing. -/
def Obligations.ChecksumIsTheTotalModulo256 : Prop :=
  (∀ bs : List Byte, (csum bs).toNat = (bs.map BitVec.toNat).sum % 256) ∧
  (∀ bs : List Byte, (∀ b ∈ bs, b = 0) → csum bs = 0x00) ∧
  (∀ bs : List Byte, (bs.map BitVec.toNat).sum = 256 → csum bs = 0x00) ∧
  (∀ bs : List Byte, bs.length ≤ 15 → (bs.map BitVec.toNat).sum ≤ 3825 ∧ (bs.map BitVec.toNat).sum < 2 ^ 12) ∧
  csum (List.replicate 15 0xFF) = 0xF1 ∧ csum [0x80, 0x80] = 0x00 ∧
  csum [0xD4, 0x04, 0x3A, 0x0A, 0xDB, 0x0A] = 0x01

/-- R94 (a) to (e). -/
def Obligations.ChecksumLaws : Prop :=
  (∀ bs cs : List Byte, bs.Perm cs → csum bs = csum cs) ∧
  (∀ bs : List Byte, csum bs = csumFold bs) ∧
  (∀ bs : List Byte, csum (bs ++ [0x00]) = csum bs) ∧
  (∀ (xs ys : List Byte) (b b' : Byte), csum (xs ++ b' :: ys) ≠ csum (xs ++ b :: ys) ↔ b ≠ b') ∧
  (∀ (xs ys zs : List Byte) (b c d : Byte), csum (xs ++ (b + d) :: ys ++ (c - d) :: zs) = csum (xs ++ b :: ys ++ c :: zs))

/-- R91: the checksum byte of every frame an encoding instruction produces is that of its 15 body bytes. -/
def Obligations.CommandChecksumCoversTheBody : Prop :=
  (∀ i (s t : State), i.isEncode = true → exec i s = .next t →
    t.txf[17] = csum [t.txf[2], t.txf[3], t.txf[4], t.txf[5], t.txf[6], t.txf[7], t.txf[8], t.txf[9], t.txf[10], t.txf[11],
      t.txf[12], t.txf[13], t.txf[14], t.txf[15], t.txf[16]]) ∧
  (∀ o p a b (s : State), ∃ t, exec (.enc o p a b) s = .next t ∧
    t.txf[17] = csum [o, p[0], p[1], p[2], p[3], p[4], p[5], p[6], p[7], p[8], p[9], p[10], p[11], a, b]) ∧
  (∀ s : State, ∃ t, exec (.enc 0x04 #v[0, 0, 0, 0, 0, 0, 0, 0, 0, 0, 0, 0] 0xFF 0xFF) s = .next t ∧ t.txf[17] = 0x02)

/-- R92, R93, R95: the computed response checksum does not depend on header, type byte or tail; a transmitted byte that differs
from it is a mismatch however small the difference; a changed marker is caught by the marker check, a changed type byte by
the type check, and a swap of the two types by neither. -/
def Obligations.ResponseChecksumCoversThePayload : Prop :=
  (∀ h ty e c (b : Vector Byte 6) (s : State), ∃ t,
    exec (.dec #v[h, ty, b[0], b[1], b[2], b[3], b[4], b[5], c, e]) s = .next t ∧
    t.rxcsc = csum [b[0], b[1], b[2], b[3], b[4], b[5]] ∧
    (h = 0xAA → e = 0xAB → (t.rxst = 3 ↔ c ≠ csum [b[0], b[1], b[2], b[3], b[4], b[5]])) ∧
    ((h ≠ 0xAA ∨ e ≠ 0xAB) → t.rxst = 2) ∧
    (h = 0xAA → e = 0xAB → c = csum [b[0], b[1], b[2], b[3], b[4], b[5]] →
      (ty = 0xC0 → t.rxst = 1 ∧ t.rxtag = 1) ∧ (ty = 0xC5 → t.rxst = 1 ∧ t.rxtag = 2) ∧
      (ty ≠ 0xC0 → ty ≠ 0xC5 → t.rxst = 4)))

/-! ## Encoder -/

/-- R100: what ENC writes, for all operands; what its descriptor and its assembler line are; its corner cases and example. -/
def Obligations.EncWritesTheCommandFrame : Prop :=
  (∀ o p a b (s : State), exec (.enc o p a b) s = .next { s with
    txf := #v[0xAA, 0xB4, o, p[0], p[1], p[2], p[3], p[4], p[5], p[6], p[7], p[8], p[9], p[10], p[11], a, b,
      csum [o, p[0], p[1], p[2], p[3], p[4], p[5], p[6], p[7], p[8], p[9], p[10], p[11], a, b], 0xAB]
    txv := true }) ∧
  (∀ o p a b, ∃ i, decode ([0x01, o] ++ p.toList ++ [a, b]) = .instr i [] ∧
    ∀ s : State, exec i s = exec (.enc o p a b) s) ∧
  (∀ o p a b, assemble (.enc o (p.toList.map .byte) a b) = .instr (.enc o p a b)) ∧
  csum (List.replicate 15 0x00) = 0x00 ∧ csum (List.replicate 15 0xFF) = 0xF1 ∧
  (∀ s : State, exec (.enc 0x04 #v[0, 0, 0, 0, 0, 0, 0, 0, 0, 0, 0, 0] 0x12 0x34) s = .next { s with
    txf := #v[0xAA, 0xB4, 0x04, 0, 0, 0, 0, 0, 0, 0, 0, 0, 0, 0, 0, 0x12, 0x34, 0x4A, 0xAB], txv := true })

/-- R101: the constants of every produced frame, whatever the instruction and its operands. -/
def Obligations.EncConstantsAreFixed : Prop :=
  ∀ i (s t : State), i.isEncode = true → exec i s = .next t →
    t.txf[0] = 0xAA ∧ t.txf[1] = 0xB4 ∧ t.txf[18] = 0xAB

/-- R103: TXV is 1 after every ENC and stays 1 until reset; what ENC leaves in TXF and TXV depends on its operands alone. -/
def Obligations.TxvStaysUntilReset : Prop :=
  (∀ i (s t : State), i.isEncode = true → exec i s = .next t → t.txv = true) ∧
  (∀ s t : State, s.txv = true → s.request ≠ .reset → step s = .next t → t.txv = true) ∧
  (∀ i (s s' t t' : State), i.isEncode = true → exec i s = .next t → exec i s' = .next t' →
    t.encoderSide = t'.encoderSide)

/-- R104: ENC copies its payload verbatim and completes for every payload. -/
def Obligations.EncCopiesThePayload : Prop :=
  ∀ o p a b (s : State), ∃ t, exec (.enc o p a b) s = .next t ∧ ∀ k (h : k < 12), t.txf[3 + k] = p[k]

/-- R105: an OPID outside the set is encoded like any other; under ENC_REFUSE_UNKNOWN_OPID = true it is refused instead, and
a known one is not. -/
def Obligations.UnknownOpidIsEncoded : Prop :=
  (∀ o p a b (s : State), o ≠ 0x02 → o ≠ 0x04 → o ≠ 0x05 → o ≠ 0x06 → o ≠ 0x08 →
    exec (.enc o p a b) s = .next (s.latchFrame (commandFrame o p a b)) ∧
    encodeCommandWith true o p a b s = .refused (.unknownOpid o)) ∧
  (∀ o p a b (s : State), o = 0x02 ∨ o = 0x04 ∨ o = 0x05 ∨ o = 0x06 ∨ o = 0x08 →
    encodeCommandWith true o p a b s = exec (.enc o p a b) s) ∧
  (∀ s : State, exec (.encb 0x03 #v[0, 0, 0, 0, 0, 0, 0, 0, 0, 0, 0, 0]) s = .next { s with
    txf := #v[0xAA, 0xB4, 0x03, 0, 0, 0, 0, 0, 0, 0, 0, 0, 0, 0, 0, 0xFF, 0xFF, 0x01, 0xAB], txv := true })

/-- R102: ENCB is ENC with both addresses 0xFF. -/
def Obligations.EncbUsesTheDefaultAddresses : Prop :=
  (∀ o p (s : State), exec (.encb o p) s = exec (.enc o p 0xFF 0xFF) s) ∧
  (∀ o p (s : State), exec (.encb o p) s = .next { s with
    txf := #v[0xAA, 0xB4, o, p[0], p[1], p[2], p[3], p[4], p[5], p[6], p[7], p[8], p[9], p[10], p[11], 0xFF, 0xFF,
      BitVec.ofNat 8 ((o.toNat + (p.toList.map BitVec.toNat).sum + 0xFE) % 256), 0xAB]
    txv := true }) ∧
  (∀ o p, encode (.encb o p) = encode (.enc o p 0xFF 0xFF)) ∧
  (∀ o p, assemble (.encb o (p.toList.map .byte)) = .instr (.encb o p)) ∧
  (∀ s : State, exec (.encb 0x04 #v[0, 0, 0, 0, 0, 0, 0, 0, 0, 0, 0, 0]) s = .next { s with
    txf := #v[0xAA, 0xB4, 0x04, 0, 0, 0, 0, 0, 0, 0, 0, 0, 0, 0, 0, 0xFF, 0xFF, 0x02, 0xAB], txv := true })

/-- The frame of a CMD_FRAME, index by index (R64, R65 give the layout), and nothing else changed. That CMD_FRAME executes, as
the ENC that produces its frame, is the model's reading (log 6, DEDUCED). -/
def Obligations.CommandFrameLayout : Prop :=
  ∀ o p a b (s : State), ∃ t, exec (.cmdFrame o p a b) s = .next t ∧ exec (.enc o p a b) s = .next t ∧
    t.txv = true ∧ t.txf[0] = 0xAA ∧ t.txf[1] = 0xB4 ∧ t.txf[2] = o ∧ (∀ k (h : k < 12), t.txf[3 + k] = p[k]) ∧
    t.txf[15] = a ∧ t.txf[16] = b ∧ t.txf[17] = csum ((t.txf.toList.drop 2).take 15) ∧ t.txf[18] = 0xAB ∧
    ((t.txf.toList.drop 2).take 15).length = 15 ∧ t.decoderSide = s.decoderSide ∧ t.hostSide = s.hostSide

/-- R110, R111, R112: the reporting-mode builders, their expansions and their frames. -/
def Obligations.ReportingModeBuilders : Prop :=
  ∀ s : State,
    exec .cmdGetMode s = exec (.encb 0x02 #v[0x00, 0x00, 0, 0, 0, 0, 0, 0, 0, 0, 0, 0]) s ∧
    exec .cmdGetMode s = .next { s with
      txf := #v[0xAA, 0xB4, 0x02, 0, 0, 0, 0, 0, 0, 0, 0, 0, 0, 0, 0, 0xFF, 0xFF, 0x00, 0xAB], txv := true } ∧
    exec .cmdSetModeActive s = exec (.encb 0x02 #v[0x01, 0x00, 0, 0, 0, 0, 0, 0, 0, 0, 0, 0]) s ∧
    exec .cmdSetModeActive s = .next { s with
      txf := #v[0xAA, 0xB4, 0x02, 0x01, 0, 0, 0, 0, 0, 0, 0, 0, 0, 0, 0, 0xFF, 0xFF, 0x01, 0xAB], txv := true } ∧
    exec .cmdSetModeQuery s = exec (.encb 0x02 #v[0x01, 0x01, 0, 0, 0, 0, 0, 0, 0, 0, 0, 0]) s ∧
    exec .cmdSetModeQuery s = .next { s with
      txf := #v[0xAA, 0xB4, 0x02, 0x01, 0x01, 0, 0, 0, 0, 0, 0, 0, 0, 0, 0, 0xFF, 0xFF, 0x02, 0xAB], txv := true }

/-- R113, R114: the query and set-device-id builders. -/
def Obligations.QueryAndSetIdBuilders : Prop :=
  (∀ s : State,
    exec .cmdQuery s = exec (.encb 0x04 #v[0, 0, 0, 0, 0, 0, 0, 0, 0, 0, 0, 0]) s ∧
    exec .cmdQuery s = .next { s with
      txf := #v[0xAA, 0xB4, 0x04, 0, 0, 0, 0, 0, 0, 0, 0, 0, 0, 0, 0, 0xFF, 0xFF, 0x02, 0xAB], txv := true }) ∧
  (∀ p (s : State),
    exec (.cmdSetId p) s = exec (.encb 0x05 p) s ∧
    exec (.cmdSetId p) s = .next { s with
      txf := #v[0xAA, 0xB4, 0x05, p[0], p[1], p[2], p[3], p[4], p[5], p[6], p[7], p[8], p[9], p[10], p[11], 0xFF, 0xFF,
        csum ([0x05] ++ p.toList ++ [0xFF, 0xFF]), 0xAB]
      txv := true }) ∧
  (∀ s : State, exec (.cmdSetId #v[0, 0, 0, 0, 0, 0, 0, 0, 0, 0, 0xA0, 0x01]) s = .next { s with
      txf := #v[0xAA, 0xB4, 0x05, 0, 0, 0, 0, 0, 0, 0, 0, 0, 0, 0xA0, 0x01, 0xFF, 0xFF, 0xA4, 0xAB], txv := true })

/-- R115, R116, R117: the sleep-setting builders. -/
def Obligations.SleepSettingBuilders : Prop :=
  ∀ s : State,
    exec .cmdGetSleep s = exec (.encb 0x06 #v[0x00, 0x00, 0, 0, 0, 0, 0, 0, 0, 0, 0, 0]) s ∧
    exec .cmdGetSleep s = .next { s with
      txf := #v[0xAA, 0xB4, 0x06, 0, 0, 0, 0, 0, 0, 0, 0, 0, 0, 0, 0, 0xFF, 0xFF, 0x04, 0xAB], txv := true } ∧
    exec .cmdSleep s = exec (.encb 0x06 #v[0x01, 0x00, 0, 0, 0, 0, 0, 0, 0, 0, 0, 0]) s ∧
    exec .cmdSleep s = .next { s with
      txf := #v[0xAA, 0xB4, 0x06, 0x01, 0, 0, 0, 0, 0, 0, 0, 0, 0, 0, 0, 0xFF, 0xFF, 0x05, 0xAB], txv := true } ∧
    exec .cmdWork s = exec (.encb 0x06 #v[0x01, 0x01, 0, 0, 0, 0, 0, 0, 0, 0, 0, 0]) s ∧
    exec .cmdWork s = .next { s with
      txf := #v[0xAA, 0xB4, 0x06, 0x01, 0x01, 0, 0, 0, 0, 0, 0, 0, 0, 0, 0, 0xFF, 0xFF, 0x06, 0xAB], txv := true }

/-- The work-period builders (R118, R119): minutes outside 0 to 30 the assembler refuses, while an ENC written by hand carries
any byte. That exec refuses such minutes too is the model's own (log 12, DEDUCED): R119 gives only the assembler's refusal. -/
def Obligations.WorkPeriodBuilders : Prop :=
  (∀ s : State,
    exec .cmdGetPeriod s = exec (.encb 0x08 #v[0x00, 0x00, 0, 0, 0, 0, 0, 0, 0, 0, 0, 0]) s ∧
    exec .cmdGetPeriod s = .next { s with
      txf := #v[0xAA, 0xB4, 0x08, 0, 0, 0, 0, 0, 0, 0, 0, 0, 0, 0, 0, 0xFF, 0xFF, 0x06, 0xAB], txv := true }) ∧
  (∀ (n : Nat) (s : State), n ≤ 30 →
    exec (.cmdSetPeriod n) s = exec (.encb 0x08 #v[0x01, BitVec.ofNat 8 n, 0, 0, 0, 0, 0, 0, 0, 0, 0, 0]) s ∧
    exec (.cmdSetPeriod n) s = .next { s with
      txf := #v[0xAA, 0xB4, 0x08, 0x01, BitVec.ofNat 8 n, 0, 0, 0, 0, 0, 0, 0, 0, 0, 0, 0xFF, 0xFF,
        BitVec.ofNat 8 ((0x07 + n) % 256), 0xAB]
      txv := true } ∧
    assemble (.cmdSetPeriod n) = .instr (.cmdSetPeriod n)) ∧
  (∀ n : Int, n < 0 ∨ n > 30 → assemble (.cmdSetPeriod n) = .refused (.minutesRange n) ∧
    ∀ s : State, exec (.cmdSetPeriod n) s = .refused (.minutesOutOfRange n)) ∧
  (∀ n : Int, assemble (.cmdSetPeriod (clampMinutes n).1) = .instr (.cmdSetPeriod (clampMinutes n).1)) ∧
  (∀ (v : Byte) (s : State), ∃ t,
    exec (.enc 0x08 #v[0x01, v, 0, 0, 0, 0, 0, 0, 0, 0, 0, 0] 0xFF 0xFF) s = .next t ∧ t.txf[4] = v)

/-! ## Decoder -/

/-- R130: what DEC writes, for every operand; its descriptor and its assembler line; its corner cases and example. -/
def Obligations.DecWritesEveryDecoderRegister : Prop :=
  (∀ raw (s : State), exec (.dec raw) s = .next { s with
    rxst :=
      if raw[0] = 0xAA ∧ raw[9] = 0xAB then
        if raw[8] = csum [raw[2], raw[3], raw[4], raw[5], raw[6], raw[7]] then
          if raw[1] = 0xC0 then 1 else if raw[1] = 0xC5 then 1 else 4
        else 3
      else 2
    rxtag :=
      if raw[0] = 0xAA ∧ raw[9] = 0xAB ∧ raw[8] = csum [raw[2], raw[3], raw[4], raw[5], raw[6], raw[7]] then
        if raw[1] = 0xC0 then 1 else if raw[1] = 0xC5 then 2 else 0
      else 0
    rxp := #v[raw[2], raw[3], raw[4], raw[5], raw[6], raw[7]]
    rxtb := raw[1]
    rxcsc := csum [raw[2], raw[3], raw[4], raw[5], raw[6], raw[7]]
    rxcst := raw[8]
    pm25 := raw[3] ++ raw[2]
    pm10 := raw[5] ++ raw[4]
    devid := raw[7] ++ raw[6]
    rdv := decide (raw[0] = 0xAA ∧ raw[9] = 0xAB ∧
      raw[8] = csum [raw[2], raw[3], raw[4], raw[5], raw[6], raw[7]] ∧ raw[1] = 0xC0) }) ∧
  (∀ raw, ∃ i, decode (0x02 :: raw.toList) = .instr i [] ∧ ∀ s : State, exec i s = exec (.dec raw) s) ∧
  (∀ raw, assemble (.dec (raw.toList.map .byte)) = .instr (.dec raw)) ∧
  (∀ s : State, ∃ t, exec (.dec #v[0xAA, 0xC0, 0xD4, 0x04, 0x3A, 0x0A, 0xDB, 0x0A, 0x01, 0xAB]) s = .next t ∧
    t.rxst = 1 ∧ t.rxtag = 1 ∧ t.pm25 = 1236 ∧ t.pm10 = 2618 ∧ t.devid = 0x0ADB ∧ t.rxcsc = 0x01 ∧ t.rxcst = 0x01 ∧
    t.rdv = true) ∧
  (∀ s : State, ∃ t, exec (.dec #v[0xAA, 0xB4, 0xD4, 0x04, 0x3A, 0x0A, 0xDB, 0x0A, 0x01, 0xAB]) s = .next t ∧
    t.rxst = 4) ∧
  (∀ s : State, ∃ t, exec (.dec #v[0, 0, 0, 0, 0, 0, 0, 0, 0, 0]) s = .next t ∧ t.rxst = 2) ∧
  (∀ s : State, ∃ t, exec (.dec #v[0xAA, 0xC1, 0xD4, 0x04, 0x3A, 0x0A, 0xDB, 0x0A, 0xA5, 0xAB]) s = .next t ∧
    t.rxst = 3)

/-- R131, R161: an operand without both markers ends in ERR_FRAMING and records its bytes; one with both never does. -/
def Obligations.FramingErrors : Prop :=
  ∀ raw (s : State), ∃ t, exec (.dec raw) s = .next t ∧
    (t.rxst = 2 ↔ (raw[0] ≠ 0xAA ∨ raw[9] ≠ 0xAB)) ∧
    (t.rxst = 2 → t.rxtag = 0 ∧ t.rdv = false ∧ t.rxp = #v[raw[2], raw[3], raw[4], raw[5], raw[6], raw[7]] ∧
      t.rxtb = raw[1] ∧ t.rxcsc = csum [raw[2], raw[3], raw[4], raw[5], raw[6], raw[7]] ∧ t.rxcst = raw[8] ∧
      t.pm25 = raw[3] ++ raw[2] ∧ t.pm10 = raw[5] ++ raw[4] ∧ t.devid = raw[7] ++ raw[6])

/-- R132, R162 and LAW-3: a framed operand whose checksum mismatches ends in ERR_CHECKSUM, untagged, with no Reading and both
checksums recorded. -/
def Obligations.ChecksumErrors : Prop :=
  ∀ raw (s : State), ∃ t, exec (.dec raw) s = .next t ∧
    (t.rxst = 3 ↔ (raw[0] = 0xAA ∧ raw[9] = 0xAB ∧ raw[8] ≠ csum [raw[2], raw[3], raw[4], raw[5], raw[6], raw[7]])) ∧
    (t.rxst = 3 → t.rxtag = 0 ∧ t.rdv = false ∧ t.rxcsc = csum [raw[2], raw[3], raw[4], raw[5], raw[6], raw[7]] ∧
      t.rxcst = raw[8])

/-- R133, R163: how a framed operand with a matching checksum is tagged. -/
def Obligations.TypeClassification : Prop :=
  ∀ raw (s : State), ∃ t, exec (.dec raw) s = .next t ∧
    (raw[0] = 0xAA → raw[9] = 0xAB → raw[8] = csum [raw[2], raw[3], raw[4], raw[5], raw[6], raw[7]] →
      (raw[1] = 0xC0 → t.rxst = 1 ∧ t.rxtag = 1) ∧ (raw[1] = 0xC5 → t.rxst = 1 ∧ t.rxtag = 2) ∧
      (raw[1] ≠ 0xC0 → raw[1] ≠ 0xC5 → t.rxst = 4 ∧ t.rxtag = 0 ∧ t.rdv = false ∧ t.rxtb = raw[1])) ∧
    (t.rxst ≠ 1 → t.rxtag = 0)

/-- R134: the status of every DEC is the first failing check in the order markers, checksum, type. -/
def Obligations.StatusReportsTheFirstFailure : Prop :=
  ∀ raw (s t : State), exec (.dec raw) s = .next t →
    t.rxst =
      if ¬ (raw[0] = 0xAA ∧ raw[9] = 0xAB) then 2
      else if raw[8] ≠ csum [raw[2], raw[3], raw[4], raw[5], raw[6], raw[7]] then 3
      else if raw[1] ≠ 0xC0 ∧ raw[1] ≠ 0xC5 then 4
      else 1

/-- R27, R28, R29, R135: the payload capture of every DEC, whatever its status. -/
def Obligations.PayloadCapture : Prop :=
  ∀ raw (s : State), ∃ t, exec (.dec raw) s = .next t ∧ (∀ k (h : k < 6), t.rxp[k] = raw[2 + k]) ∧ t.rxtb = raw[1] ∧
    t.rxcsc = csum [raw[2], raw[3], raw[4], raw[5], raw[6], raw[7]] ∧ t.rxcst = raw[8]

/-- R30, R31, R136: the three little-endian unsigned fields every DEC writes, and R136's corner cases. -/
def Obligations.ReadingComposition : Prop :=
  (∀ raw (s : State), ∃ t, exec (.dec raw) s = .next t ∧
    t.pm25.toNat = raw[3].toNat * 256 + raw[2].toNat ∧ t.pm10.toNat = raw[5].toNat * 256 + raw[4].toNat ∧
    t.devid.toNat = raw[7].toNat * 256 + raw[6].toNat) ∧
  composeLE 0x00 0x00 = 0 ∧ composeLE 0xFF 0xFF = 65535 ∧ composeLE 0x80 0x80 = 32896 ∧ composeLE 0xD4 0x04 = 1236 ∧
  composeLE 0x3A 0x0A = 2618 ∧ composeLE 0xDB 0x0A = 0x0ADB

/-- R33, R138: RDV is 1 exactly after a DEC that ended OK and DATA, and 0 after reset. -/
def Obligations.ReadingValidity : Prop :=
  (∀ i (s t : State), i.isDecode = true → exec i s = .next t → (t.rdv = true ↔ (t.rxst = 1 ∧ t.rxtag = 1))) ∧
  (∀ i (s t : State), i.isDecode = true → exec i s = .next t → t.rxst = 1 → t.rxtag = 2 → t.rdv = false) ∧
  (∀ s : State, s.resetRegisters.rdv = false) ∧ State.reset.rdv = false

/-- R139: the Reading a host takes from the registers is each one divided by ten exactly, and there is none while RDV = 0. -/
def Obligations.ReadingIsExactTenths : Prop :=
  (∀ s : State, s.rdv = true → ∃ r, s.reading = some r ∧ r.pm25 * 10 = (s.pm25.toNat : Rat) ∧
    r.pm10 * 10 = (s.pm10.toNat : Rat)) ∧
  (∀ s : State, s.rdv = false → s.reading = none) ∧
  (∀ s : State, ∃ t, exec (.dec #v[0xAA, 0xC0, 0xD4, 0x04, 0x3A, 0x0A, 0xDB, 0x0A, 0x01, 0xAB]) s = .next t ∧
    t.reading = some { pm25 := 1236 / 10, pm10 := 2618 / 10 })

/-- R140: what a DEC leaves in the decoder registers does not depend on the state it ran in. -/
def Obligations.DecDependsOnlyOnItsOperand : Prop :=
  ∀ i (s s' t t' : State), i.isDecode = true → exec i s = .next t → exec i s' = .next t' →
    t.decoderSide = t'.decoderSide

/-- LAW-2 (95_test_vectors.md section 4): a well-formed response of either type gives back its payload and its tag, and a DATA one
its Reading. That a response row is the DEC of its frame, whatever its checksum byte, is the model's reading (log 18, DEDUCED
from R79, whose masks leave that byte free). -/
def Obligations.WellFormedResponsesDecode : Prop :=
  (∀ (b : Vector Byte 6) (s : State), exec (.rspData b (csum b.toList)) s = .next { s with
    rxst := 1, rxtag := 1, rxp := b, rxtb := 0xC0, rxcsc := csum b.toList, rxcst := csum b.toList
    pm25 := b[1] ++ b[0], pm10 := b[3] ++ b[2], devid := b[5] ++ b[4], rdv := true }) ∧
  (∀ (b : Vector Byte 6) (s : State), exec (.rspSetting b (csum b.toList)) s = .next { s with
    rxst := 1, rxtag := 2, rxp := b, rxtb := 0xC5, rxcsc := csum b.toList, rxcst := csum b.toList
    pm25 := b[1] ++ b[0], pm10 := b[3] ++ b[2], devid := b[5] ++ b[4], rdv := false }) ∧
  (∀ (b : Vector Byte 6) c (s : State),
    exec (.rspData b c) s = exec (.dec #v[0xAA, 0xC0, b[0], b[1], b[2], b[3], b[4], b[5], c, 0xAB]) s ∧
    exec (.rspSetting b c) s = exec (.dec #v[0xAA, 0xC5, b[0], b[1], b[2], b[3], b[4], b[5], c, 0xAB]) s) ∧
  (∀ (b : Vector Byte 6) c (s : State), c ≠ csum b.toList → ∃ t u, exec (.rspData b c) s = .next t ∧ t.rxst = 3 ∧
    exec (.rspSetting b c) s = .next u ∧ u.rxst = 3)

/-! ## NOP, frames and completion -/

/-- R150: NOP writes nothing; its encoding and its assembler line. -/
def Obligations.NopWritesNothing : Prop :=
  (∀ s : State, exec .nop s = .next s) ∧ encode .nop = [0x00] ∧ assemble .nop = .instr .nop

/-- R36: the two units share no state. An ENC under any of its names writes only TXF and TXV, a DEC under any of its names only the
ten decoder registers, and neither touches the host's side of the port. The codec has no memory (R40). -/
def Obligations.UnitsShareNoState : Prop :=
  (∀ i (s t : State), i.isEncode = true → exec i s = .next t →
    t.decoderSide = s.decoderSide ∧ t.hostSide = s.hostSide) ∧
  (∀ i (s t : State), i.isDecode = true → exec i s = .next t →
    t.encoderSide = s.encoderSide ∧ t.hostSide = s.hostSide)

/-- R160: no instruction fails. Every one the assembler admits completes in every state, and none ever faults. -/
def Obligations.EveryInstructionCompletes : Prop :=
  (∀ i (s : State), i.wellFormed = true → ∃ t, exec i s = .next t) ∧
  (∀ i (s : State) f, exec i s ≠ .fault f)

/-- An instruction does what the operation it expands to does, and the name the decoder gives its words changes nothing. The
expansions of ENCB and the builders are R102 and R110 to R119; those of CMD_FRAME, RSP_DATA and RSP_SETTING are the model's
(log 6, log 18, DEDUCED), and so is the canonical name (log 5, DEDUCED from R79). -/
def Obligations.NamesDoNotChangeTheEffect : Prop :=
  ∀ i (s : State), i.wellFormed = true → exec i s = exec i.expand s ∧ exec i.canonical s = exec i s

/-- R202: ENC and DEC, under any of their names, may be issued in either order with the same result. -/
def Obligations.EncodeAndDecodeCommute : Prop :=
  ∀ i j (s : State), i.isEncode = true → i.wellFormed = true → j.isDecode = true →
    ∃ u v t, exec i s = .next u ∧ exec j u = .next t ∧ exec j s = .next v ∧ exec i v = .next t

/-! ## Reset, reads and stops -/

/-- The flags after reset, that reset reads no register, and that two resets leave what one does (R38, R190); and that a host read of
a data register faults there (R39). That the host's last read value and its other pending interactions stay is the model's
choice (log 1, log 2, DESIGN CHOICE). The value the model keeps in a data register after reset is its choice too (log 3, log 4),
and nothing here states it. -/
def Obligations.ResetValues : Prop :=
  (∀ (s : State) rest, s.inbox = .reset :: rest → ∃ t, step s = .next t ∧ t.txv = false ∧ t.rxst = 0 ∧ t.rxtag = 0 ∧
    t.rdv = false ∧ t.inbox = rest ∧ t.hostData = s.hostData ∧
    ∀ r ∈ [ResultReg.txf, .rxp, .rxtb, .rxcsc, .rxcst, .pm25, .pm10, .devid],
      step (t.present (.read r)) = .fault (.unspecifiedRead r)) ∧
  (∀ s s' t t' : State, s.request = .reset → s'.request = .reset → step s = .next t → step s' = .next t' →
    t.encoderSide = t'.encoderSide ∧ t.decoderSide = t'.decoderSide) ∧
  (∀ s t u : State, step (s.present .reset) = .next t → step (t.present .reset) = .next u → u = t) ∧
  State.reset.txv = false ∧ State.reset.rxst = 0 ∧ State.reset.rxtag = 0 ∧ State.reset.rdv = false

/-- Which host reads have no value to return, which have one, and that a register keeps its value until the next interaction
that reaches its unit (R39). That single bytes of TXF and RXP can be read, under the condition of their register, is the
model's choice (log 15, DESIGN CHOICE). -/
def Obligations.ReadsBeforeTheFirstWriteFault : Prop :=
  (∀ (s : State) r, r = .txf ∨ (∃ k, r = .txfByte k) →
    (s.txv = false → step (s.present (.read r)) = .fault (.unspecifiedRead r)) ∧
    (s.txv = true → step (s.present (.read r)) = .next { s with hostData := some (s.valueOf r) })) ∧
  (∀ (s : State) r, r ∈ [ResultReg.rxp, .rxtb, .rxcsc, .rxcst, .pm25, .pm10, .devid] ∨ (∃ k, r = .rxpByte k) →
    (s.rxst = 0 → step (s.present (.read r)) = .fault (.unspecifiedRead r)) ∧
    (s.rxst ≠ 0 → step (s.present (.read r)) = .next { s with hostData := some (s.valueOf r) })) ∧
  (∀ s t : State, step s = .next t → s.request.reachesEncoder = false → t.encoderSide = s.encoderSide) ∧
  (∀ s t : State, step s = .next t → s.request.reachesDecoder = false → t.decoderSide = s.decoderSide)

/-- R39, R203, S1 and D13: how the model's reads stand to the hardware's. A read the model completes gives the one value the
hardware may return. A read of a data register before its unit's first write, or after a reset, faults in the model, and there
the hardware may return every value of the register's width, so the fault rests on none of them and not on the value the
model keeps in the register (log 3, log 4). Single bytes are the model's choice (log 15). -/
def Obligations.ModelReadsAgreeWithTheHardware : Prop :=
  (∀ (s t : State) r, step (s.present (.read r)) = .next t →
    ∀ v, s.hardwareReturns r v = true ↔ t.hostData = some v) ∧
  (∀ (s : State) r, (r = .txf ∨ ∃ k, r = .txfByte k) → s.txv = false →
    step (s.present (.read r)) = .fault (.unspecifiedRead r) ∧ ∀ v, r.fits v = true → s.hardwareReturns r v = true) ∧
  (∀ (s : State) r, (r ∈ [ResultReg.rxp, .rxtb, .rxcsc, .rxcst, .pm25, .pm10, .devid] ∨ ∃ k, r = .rxpByte k) → s.rxst = 0 →
    step (s.present (.read r)) = .fault (.unspecifiedRead r) ∧ ∀ v, r.fits v = true → s.hardwareReturns r v = true) ∧
  (∀ s t : State, s.request = .reset → step s = .next t →
    ∀ r ∈ [ResultReg.txf, .rxp, .rxtb, .rxcsc, .rxcst, .pm25, .pm10, .devid], ∀ v, r.fits v = true →
      t.hardwareReturns r v = true) ∧
  (∀ (s : State) r v, s.hardwareReturns r v = true → r.fits v = true)

/-- R47: a host read changes no register, and a second read of the same register returns the same. -/
def Obligations.ReadsHaveNoSideEffect : Prop :=
  (∀ (s t : State) r, step (s.present (.read r)) = .next t →
    t.encoderSide = s.encoderSide ∧ t.decoderSide = s.decoderSide ∧ t.inbox = s.inbox ∧ t.hostData = some (s.valueOf r)) ∧
  (∀ (s t : State) r, step (s.present (.read r)) = .next t → step (t.present (.read r)) = .next t) ∧
  (∀ (s : State) r, r ∈ [ResultReg.txv, .rxst, .rxtag, .rdv] →
    step (s.present (.read r)) = .next { s with hostData := some (s.valueOf r) })

/-- The only faults and refusals of a step (R164), and what each one came from. That a descriptor of another length is refused is the
model's own form of R45 (log 10). -/
def Obligations.OnlyTheseStops : Prop :=
  (∀ (s : State) f, step s = .fault f →
    ∃ r rest, s.inbox = .read r :: rest ∧ f = .unspecifiedRead r ∧ s.holdsValue r = false) ∧
  (∀ (s : State) q, step s = .refused q →
    (∃ op ops rest, s.inbox = .issue (op :: ops) :: rest ∧ q = .reservedOperation op ∧ (opsel op = 3 ∨ mbz op ≠ 0)) ∨
    (∃ d rest, s.inbox = .issue d :: rest ∧ q = .malformedDescriptor d.length ∧ spellsOperation d = false) ∨
    (∃ d₁ d₂ rest, s.inbox = .concurrent d₁ d₂ :: rest ∧ q = .concurrentIssue) ∨
    (∃ d rest, s.inbox = .resetDuring d :: rest ∧ q = .resetDuringOperation))

/-- A step completes exactly when the host presents what the spec gives an effect: one whole operation, a reset, or a read of a
register that holds a value (R39, R77, R160, R164, R191). That a descriptor of another length never completes is the model's form
of R45 (log 10, DEDUCED); that a step with nothing pending completes, as the idle NOP, is log 1 (DESIGN CHOICE, DEDUCED from
R150). -/
def Obligations.AdmittedInteractionsComplete : Prop :=
  ∀ s : State, s.admits s.request = true ↔ ∃ t, step s = .next t

/-! ## Invariant and runs -/

/-- The reset state is coherent (R38). -/
def Obligations.ResetIsCoherent : Prop := State.reset.Coherent

/-- Every step keeps the relations 10_state.md gives between the registers: legal codes, tag and reading flag following the status, a
held frame well formed with a valid checksum, reading fields composed from the captured payload, and a verdict the captured
bytes bear out (R24, R25, R28, R30, R31, R33, R64, R132, R133). -/
def Obligations.StepKeepsCoherence : Prop :=
  ∀ s t : State, s.Coherent → step s = .next t → t.Coherent

/-- Over any run (R36, R37, R201) the decoder registers are what the DECs and resets alone would have left; ENCs, NOPs and reads in between
do not show in them. -/
def Obligations.DecoderSeesOnlyDecodesAndResets : Prop :=
  ∀ (rs : List Request) (s t : State), runOver rs s = .next t →
    ∃ t', runOver (rs.filter Request.reachesDecoder) s = .next t' ∧ t'.decoderSide = t.decoderSide

/-- What a step does to the decoder side: an interaction that does not reach it leaves it as it is, and one that does leaves the
same in every two states whose decoder sides agree, so that dropping the others from a run does not show (R36, R37, R201). -/
def Obligations.StepKeepsDecoderSidesEqual : Prop :=
  (∀ s t : State, s.request.reachesDecoder = false → step s = .next t → t.decoderSide = s.decoderSide) ∧
  (∀ s s' t : State, s.decoderSide = s'.decoderSide → s'.request = s.request → s.request.reachesDecoder = true →
    step s = .next t → ∃ t', step s' = .next t' ∧ t'.decoderSide = t.decoderSide)

/-- A frame held in TXF stays there, with TXV = 1, through every step that does not reach the encoder (R22, R36, R39); a step
that does reach it replaces the frame whole (R200), or is a reset, which leaves no frame held (R190). -/
def Obligations.StepKeepsTheHeldFrame : Prop :=
  (∀ (frame : Vector Byte 19) (s t : State), s.txv = true ∧ s.txf = frame → s.request.reachesEncoder = false →
    step s = .next t → t.txv = true ∧ t.txf = frame) ∧
  (∀ s t : State, s.request.reachesEncoder = true → step s = .next t →
    (∃ i o p a b, s.request = .issue (encode i) ∧ i.isEncode = true ∧ i.expand = .enc o p a b ∧ t.txv = true ∧
      t.txf = commandFrame o p a b) ∨
    (s.request = .reset ∧ t.txv = false))

/-- After any run whose last ENC is `i`, TXF holds `i`'s frame whole, whatever was encoded before (R200), and through every later
interaction that does not reach the encoder (R22, R36, R39). -/
def Obligations.LastEncodeDeterminesTheFrame : Prop :=
  ∀ (rs₁ rs₂ : List Request) (i : Instr) (s t : State), i.isEncode = true →
    (∀ r ∈ rs₂, r.reachesEncoder = false) → runOver (rs₁ ++ .issue (encode i) :: rs₂) s = .next t →
    ∃ o p a b, i.expand = .enc o p a b ∧ t.txv = true ∧ t.txf = commandFrame o p a b

/-- The assembler refuses a payload list that is not exactly 12 bytes and a raw list that is not exactly 10 (R78), and minutes
outside 0 to 30 (R119); nothing else is refused, every other line of its forms is admitted as the instruction it names, and
what it admits is well formed. -/
def Obligations.AssemblerRefusesExactlyTheWrongLines : Prop :=
  (∀ o items a b, (listBytes items).length ≠ 12 →
    assemble (.enc o items a b) = .refused (.payloadLength (listBytes items).length) ∧
    assemble (.encb o items) = .refused (.payloadLength (listBytes items).length) ∧
    assemble (.cmdSetId items) = .refused (.payloadLength (listBytes items).length)) ∧
  (∀ items, (listBytes items).length ≠ 10 → assemble (.dec items) = .refused (.rawLength (listBytes items).length)) ∧
  (∀ o items a b, (listBytes items).length = 12 → ∃ p : Vector Byte 12, p.toList = listBytes items ∧
    assemble (.enc o items a b) = .instr (.enc o p a b) ∧ assemble (.encb o items) = .instr (.encb o p) ∧
    assemble (.cmdSetId items) = .instr (.cmdSetId p)) ∧
  (∀ items, (listBytes items).length = 10 → ∃ r : Vector Byte 10, r.toList = listBytes items ∧
    assemble (.dec items) = .instr (.dec r)) ∧
  (∀ n : Int, n < 0 ∨ n > 30 → assemble (.cmdSetPeriod n) = .refused (.minutesRange n)) ∧
  (∀ n : Int, 0 ≤ n → n ≤ 30 → assemble (.cmdSetPeriod n) = .instr (.cmdSetPeriod n)) ∧
  (∀ x ∈ [(AsmLine.nop, Instr.nop), (.cmdGetMode, .cmdGetMode), (.cmdSetModeActive, .cmdSetModeActive),
    (.cmdSetModeQuery, .cmdSetModeQuery), (.cmdQuery, .cmdQuery), (.cmdGetSleep, .cmdGetSleep), (.cmdSleep, .cmdSleep),
    (.cmdWork, .cmdWork), (.cmdGetPeriod, .cmdGetPeriod)], assemble x.1 = .instr x.2) ∧
  (∀ l e, assemble l = .refused e →
    (∃ o items a b, (l = .enc o items a b ∨ l = .encb o items ∨ l = .cmdSetId items) ∧ (listBytes items).length ≠ 12 ∧
      e = .payloadLength (listBytes items).length) ∨
    (∃ items, l = .dec items ∧ (listBytes items).length ≠ 10 ∧ e = .rawLength (listBytes items).length) ∨
    (∃ n, l = .cmdSetPeriod n ∧ (n < 0 ∨ n > 30) ∧ e = .minutesRange n)) ∧
  (∀ l i, assemble l = .instr i → i.wellFormed = true)

/-- R160, R192: whatever lines the assembler admits run to the end from every state, one step each. -/
def Obligations.AssembledLinesRunToTheEnd : Prop :=
  ∀ (ls : List AsmLine) (rs : List Request) (s : State), assembleProgram ls = some rs →
    rs.length = ls.length ∧ ∃ t, runOver rs s = .next t ∧ t.inbox = []

/-! ## Frame spaces and the host's view -/

/-- R14, R40: MemRead and MemWrite on a frame space are defined exactly inside it; a write is read back, and every other byte
stays. -/
def Obligations.FrameSpaceAccesses : Prop :=
  (∀ k (space : Vector Byte k) addr n, (memRead space addr n).isSome = true ↔ addr + n ≤ k) ∧
  (∀ k (space : Vector Byte k) addr n bs, memRead space addr n = some bs →
    bs.length = n ∧ ∀ j (_ : j < n), bs[j]? = space[addr + j]?) ∧
  (∀ k (space : Vector Byte k) addr v, (memWrite space addr v).isSome = true ↔ addr + v.length ≤ k) ∧
  (∀ k (space space' : Vector Byte k) addr v, memWrite space addr v = some space' →
    memRead space' addr v.length = some v ∧
    ∀ j (h : j < k), j < addr ∨ addr + v.length ≤ j → space'[j] = space[j])

/-- R165, R178, R179, R181: how a host maps statuses, when it accepts the reply to CMD_QUERY and to a configuration command and
which error it reports otherwise, and how it clamps a work period. That an error status is mapped by R165 in these two places
too is the model's reading (log 14, DEDUCED), and that IDLE maps to no error is its choice (log 19, DESIGN CHOICE). The
clauses on replies are about a state after a DEC, so none rests on what the checks answer while RXST = IDLE. -/
def Obligations.HostViewOfTheRegisters : Prop :=
  hostError 3 = some .checksumError ∧ hostError 2 = some .protocolError ∧ hostError 4 = some .protocolError ∧
  hostError 1 = none ∧ hostError 0 = none ∧
  (∀ i (s t : State), i.isDecode = true → exec i s = .next t → t.acceptsReading = t.rdv) ∧
  (∀ i (s t : State), i.isDecode = true → exec i s = .next t →
    (t.queryReplyError = none ↔ t.rdv = true) ∧
    (t.rxst = 1 → t.rxtag = 2 → t.queryReplyError = some .protocolError) ∧
    (t.rxst ≠ 1 → t.queryReplyError = hostError t.rxst)) ∧
  (∀ i (s t : State) k opid, i.isDecode = true → exec i s = .next t →
    (t.settingReplyError k opid = none ↔ t.rxst = 1 ∧ t.rxtag = 2 ∧ t.rxp[k] = opid) ∧
    (t.rxst = 1 → (t.rxtag = 1 ∨ t.rxp[k] ≠ opid) → t.settingReplyError k opid = some .protocolError) ∧
    (t.rxst ≠ 1 → t.settingReplyError k opid = hostError t.rxst)) ∧
  (∀ n : Int, n < 0 → clampMinutes n = (0, true)) ∧ (∀ n : Int, n > 30 → clampMinutes n = (30, true)) ∧
  (∀ n : Int, 0 ≤ n → n ≤ 30 → clampMinutes n = (n, false))
end

