-- ==== Sys2Proof/Laws/Checksum.lean ====
section
/-! SUPPORT. The checksum's small lemmas (40_checksum.md R90). -/

namespace Sys2Proof.Machine

@[simp] theorem byteTotal_nil : byteTotal [] = 0 := rfl

@[simp] theorem byteTotal_cons (b : Byte) (bs : List Byte) : byteTotal (b :: bs) = b.toNat + byteTotal bs := by
  simp [byteTotal]

@[simp] theorem byteTotal_append (xs ys : List Byte) : byteTotal (xs ++ ys) = byteTotal xs + byteTotal ys := by
  simp [byteTotal]

theorem csum_eq_ofNat (bs : List Byte) : csum bs = BitVec.ofNat 8 (byteTotal bs) := by
  apply BitVec.eq_of_toNat_eq
  simp [csum]

@[simp] theorem csum_nil : csum [] = 0 := rfl

@[simp] theorem csum_cons (b : Byte) (bs : List Byte) : csum (b :: bs) = b + csum bs := by
  apply BitVec.eq_of_toNat_eq
  simp [csum]

@[simp] theorem csum_append (xs ys : List Byte) : csum (xs ++ ys) = csum xs + csum ys := by
  induction xs with
  | nil => simp
  | cons x xs ih => simp [ih, BitVec.add_assoc]

end Sys2Proof.Machine
end

