-- ==== Sys2Proof/Laws/Vec.lean ====
section
/-! SUPPORT. A fixed-width operand is the literal of its elements, and its list is the list of them. -/

namespace Sys2Proof

/-- The vector of a vector's elements is that vector. -/
theorem ofFn_self {α : Type} {n : Nat} (v : Vector α n) : (Vector.ofFn fun i : Fin n => v[i]) = v := by
  simp

theorem vec6_eta (p : Vector Byte 6) : #v[p[0], p[1], p[2], p[3], p[4], p[5]] = p := ofFn_self p

theorem vec10_eta (r : Vector Byte 10) :
    #v[r[0], r[1], r[2], r[3], r[4], r[5], r[6], r[7], r[8], r[9]] = r := ofFn_self r

theorem vec12_eta (p : Vector Byte 12) :
    #v[p[0], p[1], p[2], p[3], p[4], p[5], p[6], p[7], p[8], p[9], p[10], p[11]] = p := ofFn_self p

theorem vec6_toList (p : Vector Byte 6) : p.toList = [p[0], p[1], p[2], p[3], p[4], p[5]] :=
  (congrArg Vector.toList (vec6_eta p)).symm

theorem vec10_toList (r : Vector Byte 10) :
    r.toList = [r[0], r[1], r[2], r[3], r[4], r[5], r[6], r[7], r[8], r[9]] :=
  (congrArg Vector.toList (vec10_eta r)).symm

theorem vec12_toList (p : Vector Byte 12) :
    p.toList = [p[0], p[1], p[2], p[3], p[4], p[5], p[6], p[7], p[8], p[9], p[10], p[11]] :=
  (congrArg Vector.toList (vec12_eta p)).symm

end Sys2Proof
end

