-- ==== Sys2Proof/Laws/Decode.lean ====
section
/-! SUPPORT. The decoder on each descriptor, and everything it can answer. -/

namespace Sys2Proof

theorem decode_opNop (rest : List Byte) : decode (opNop :: rest) = .instr .nop rest := rfl

theorem decode_opEnc (rest : List Byte) : decode (opEnc :: rest) = orTruncated opEnc (decodeEncOperands rest) := rfl

theorem decode_opDec (rest : List Byte) : decode (opDec :: rest) = orTruncated opDec (decodeDecOperands rest) := rfl

theorem decode_encDescriptor (o : Byte) (p : Vector Byte 12) (a b : Byte) (rest : List Byte) :
    decode (encDescriptor o p a b ++ rest) = .instr (nameEnc o p a b) rest := by
  simp only [encDescriptor, List.cons_append, List.nil_append, decode_opEnc, decodeEncOperands, vec12_eta, orTruncated]

theorem decode_decDescriptor (raw : Vector Byte 10) (rest : List Byte) :
    decode (decDescriptor raw ++ rest) = .instr (nameDec raw) rest := by
  simp only [decDescriptor, List.cons_append, List.nil_append, decode_opDec, decodeDecOperands, vec10_eta, orTruncated]

/-- An operation byte with a clear MBZ field is told apart by OPSEL (R60). -/
theorem op_cases (op : Byte) : mbz op ≠ 0 ∨ op = opNop ∨ op = opEnc ∨ op = opDec ∨ op = 0x03 := by
  revert op; decide

/-- A reserved operation byte is rejected whatever follows it (R77). -/
theorem decode_reserved {op : Byte} (h : opsel op = 3 ∨ mbz op ≠ 0) (rest : List Byte) :
    decode (op :: rest) = .rejected (.reserved op) := by
  rcases op_cases op with hm | rfl | rfl | rfl | rfl
  · rw [decode, if_pos hm]
  · exact absurd h (by decide)
  · exact absurd h (by decide)
  · exact absurd h (by decide)
  · rfl

/-- A reserved operation byte begins no descriptor (R75, R77). -/
theorem descriptorLength_reserved {op : Byte} (h : opsel op = 3 ∨ mbz op ≠ 0) : descriptorLength op = none := by
  revert h; revert op; decide

theorem descriptorLength_opNop : descriptorLength opNop = some 1 := rfl
theorem descriptorLength_opEnc : descriptorLength opEnc = some 16 := rfl
theorem descriptorLength_opDec : descriptorLength opDec = some 11 := rfl

theorem decodeEncOperands_some {bs rest : List Byte} {i : Instr} (h : decodeEncOperands bs = some (i, rest)) :
    ∃ o p a b, opEnc :: bs = encDescriptor o p a b ++ rest ∧ i = nameEnc o p a b := by
  unfold decodeEncOperands at h
  split at h
  · next o p0 p1 p2 p3 p4 p5 p6 p7 p8 p9 p10 p11 a b r =>
    obtain ⟨rfl, rfl⟩ := Prod.mk.inj (Option.some.inj h)
    exact ⟨o, #v[p0, p1, p2, p3, p4, p5, p6, p7, p8, p9, p10, p11], a, b, rfl, rfl⟩
  · cases h

theorem decodeDecOperands_some {bs rest : List Byte} {i : Instr} (h : decodeDecOperands bs = some (i, rest)) :
    ∃ raw, opDec :: bs = decDescriptor raw ++ rest ∧ i = nameDec raw := by
  unfold decodeDecOperands at h
  split at h
  · next r0 r1 r2 r3 r4 r5 r6 r7 r8 r9 r =>
    obtain ⟨rfl, rfl⟩ := Prod.mk.inj (Option.some.inj h)
    exact ⟨#v[r0, r1, r2, r3, r4, r5, r6, r7, r8, r9], rfl, rfl⟩
  · cases h

theorem orTruncated_instr {op : Byte} {x : Option (Instr × List Byte)} {i : Instr} {rest : List Byte}
    (h : orTruncated op x = .instr i rest) : x = some (i, rest) := by
  match x, h with
  | some (_, _), h => simpa [orTruncated] using h

/-- What a decoded byte sequence was: one of the three descriptors and the bytes after it. -/
theorem decode_cases {bs rest : List Byte} {i : Instr} (h : decode bs = .instr i rest) :
    (bs = opNop :: rest ∧ i = .nop) ∨
    (∃ o p a b, bs = encDescriptor o p a b ++ rest ∧ i = nameEnc o p a b) ∨
    (∃ raw, bs = decDescriptor raw ++ rest ∧ i = nameDec raw) := by
  match bs, h with
  | op :: bs, h =>
    rcases op_cases op with hm | rfl | rfl | rfl | rfl
    · rw [decode, if_pos hm] at h; cases h
    · rw [decode_opNop] at h
      obtain ⟨rfl, rfl⟩ := Decoded.instr.inj h
      exact .inl ⟨rfl, rfl⟩
    · exact .inr (.inl (decodeEncOperands_some (orTruncated_instr (decode_opEnc bs ▸ h))))
    · exact .inr (.inr (decodeDecOperands_some (orTruncated_instr (decode_opDec bs ▸ h))))
    · rw [decode_reserved (by decide)] at h; cases h

/-- The byte of a minutes operand read from a byte is that byte. -/
theorem minutesByte_toNat (b : Byte) : minutesByte (b.toNat : Int) = b := by
  simp [minutesByte]

/-- Naming loses no operand: the named ENC expands to the same ENC (R102, R110 to R119). -/
@[simp] theorem nameEnc_expand (o : Byte) (p : Vector Byte 12) (a b : Byte) :
    (nameEnc o p a b).expand = .enc o p a b := by
  unfold nameEnc nameDefaultEnc
  by_cases h : a = Config.defaultAddr ∧ b = Config.defaultAddr
  · obtain ⟨rfl, rfl⟩ := h
    rw [if_pos ⟨rfl, rfl⟩]
    repeat' split
    all_goals first
      | rfl
      | (subst_vars; rfl)
      | (next h => subst_vars; simp only [Instr.expand, minutesByte_toNat, ← h.1])
  · rw [if_neg h]; rfl

@[simp] theorem nameDec_expand (raw : Vector Byte 10) : (nameDec raw).expand = .dec raw := by
  unfold nameDec
  split
  · next h =>
    split
    · next h1 =>
      have e := vec10_eta raw
      rw [h.1, h.2, h1] at e
      exact congrArg Instr.dec e
    · split
      · next h1 =>
        have e := vec10_eta raw
        rw [h.1, h.2, h1] at e
        exact congrArg Instr.dec e
      · rfl
  · rfl

/-- Every instruction expands to one of the three operations of R60. -/
theorem expand_cases (i : Instr) :
    i = .nop ∨ (∃ o p a b, i.expand = .enc o p a b) ∨ (∃ raw, i.expand = .dec raw) := by
  cases i with
  | nop => exact .inl rfl
  | dec raw => exact .inr (.inr ⟨_, rfl⟩)
  | rspData p c => exact .inr (.inr ⟨_, rfl⟩)
  | rspSetting p c => exact .inr (.inr ⟨_, rfl⟩)
  | _ => exact .inr (.inl ⟨_, _, _, _, rfl⟩)

end Sys2Proof
end

