-- ==== Sys2Proof/Laws/HostView.lean ====
section
/-! SUPPORT. What the hardware may return to a host read, by whether the register holds a value (10_state.md R39). -/

namespace Sys2Proof.Machine

/-- A register's value is of its own width. -/
@[simp] theorem fits_valueOf (r : ResultReg) (s : State) : r.fits (s.valueOf r) = true := by
  cases r <;> simp [ResultReg.fits, State.valueOf]

theorem hardwareReturns_of_holdsValue {s : State} {r : ResultReg} (h : s.holdsValue r = true) (v : ReadValue) :
    s.hardwareReturns r v = true ↔ v = s.valueOf r := by
  simp only [State.hardwareReturns, h, Bool.not_true, Bool.false_or, Bool.and_eq_true, beq_iff_eq]
  exact ⟨And.right, fun e => ⟨e ▸ fits_valueOf r s, e⟩⟩

theorem hardwareReturns_of_not_holdsValue {s : State} {r : ResultReg} (h : s.holdsValue r = false) (v : ReadValue) :
    s.hardwareReturns r v = r.fits v := by
  simp [State.hardwareReturns, h]

end Sys2Proof.Machine
end

