-- ==== Sys2Proof/Laws/Operands.lean ====
section
/-! SUPPORT. Little-endian composition and the frame-space accesses (20_memory.md R40, R42). -/

namespace Sys2Proof.Machine

/-- The composed field is the concatenation with the high byte first. -/
theorem composeLE_eq_append (lo hi : Byte) : composeLE lo hi = hi ++ lo := by
  apply BitVec.eq_of_getLsbD_eq
  intro i hi
  simp only [composeLE, BitVec.getLsbD_or, BitVec.getLsbD_shiftLeft, BitVec.getLsbD_setWidth, BitVec.getLsbD_append]
  by_cases h8 : i < 8
  · simp [h8, hi]
  · have : lo.getLsbD i = false := BitVec.getLsbD_of_ge lo i (by omega)
    simp [h8, hi, this]
    omega

theorem writeList_length (xs : List Byte) (addr : Nat) (v : List Byte) :
    (writeList xs addr v).length = xs.length := by
  induction xs generalizing addr v with
  | nil => rfl
  | cons x xs ih =>
    match addr, v with
    | 0, [] => rfl
    | 0, _ :: _ => simp [writeList, ih]
    | _ + 1, _ => simp [writeList, ih]

/-- What one element of a written list is: the byte written there, else the old one. -/
theorem writeList_getElem? (xs : List Byte) (addr : Nat) (v : List Byte) (i : Nat) (hi : i < xs.length) :
    (writeList xs addr v)[i]? =
      if addr ≤ i ∧ i < addr + v.length then v[i - addr]? else xs[i]? := by
  induction xs generalizing addr v i with
  | nil => simp at hi
  | cons x xs ih =>
    match addr, v, i with
    | 0, [], i => simp [writeList]
    | 0, w :: ws, 0 => simp [writeList]
    | 0, w :: ws, i + 1 =>
      simp only [List.length_cons, Nat.add_lt_add_iff_right] at hi
      simp [writeList, ih 0 ws i hi]
    | addr + 1, v, 0 => simp [writeList]
    | addr + 1, v, i + 1 =>
      simp only [List.length_cons, Nat.add_lt_add_iff_right] at hi
      simp only [writeList, List.getElem?_cons_succ, ih addr v i hi]
      congr 1
      · simp only [eq_iff_iff]; omega
      · congr 1; omega

end Sys2Proof.Machine
end

