-- ==== Sys2Proof/Laws/State.lean ====
section
/-! SUPPORT. One lemma per field per update of State, so that no later proof unfolds a record update. -/

namespace Sys2Proof.Machine

/-! latchFrame -/

@[simp] theorem State.latchFrame_txf (s : State) (f : Vector Byte 19) : (s.latchFrame f).txf = f := rfl
@[simp] theorem State.latchFrame_txv (s : State) (f : Vector Byte 19) : (s.latchFrame f).txv = true := rfl
@[simp] theorem State.latchFrame_rxst (s : State) (f : Vector Byte 19) : (s.latchFrame f).rxst = s.rxst := rfl
@[simp] theorem State.latchFrame_rxtag (s : State) (f : Vector Byte 19) : (s.latchFrame f).rxtag = s.rxtag := rfl
@[simp] theorem State.latchFrame_rxp (s : State) (f : Vector Byte 19) : (s.latchFrame f).rxp = s.rxp := rfl
@[simp] theorem State.latchFrame_rxtb (s : State) (f : Vector Byte 19) : (s.latchFrame f).rxtb = s.rxtb := rfl
@[simp] theorem State.latchFrame_rxcsc (s : State) (f : Vector Byte 19) : (s.latchFrame f).rxcsc = s.rxcsc := rfl
@[simp] theorem State.latchFrame_rxcst (s : State) (f : Vector Byte 19) : (s.latchFrame f).rxcst = s.rxcst := rfl
@[simp] theorem State.latchFrame_pm25 (s : State) (f : Vector Byte 19) : (s.latchFrame f).pm25 = s.pm25 := rfl
@[simp] theorem State.latchFrame_pm10 (s : State) (f : Vector Byte 19) : (s.latchFrame f).pm10 = s.pm10 := rfl
@[simp] theorem State.latchFrame_devid (s : State) (f : Vector Byte 19) : (s.latchFrame f).devid = s.devid := rfl
@[simp] theorem State.latchFrame_rdv (s : State) (f : Vector Byte 19) : (s.latchFrame f).rdv = s.rdv := rfl
@[simp] theorem State.latchFrame_inbox (s : State) (f : Vector Byte 19) : (s.latchFrame f).inbox = s.inbox := rfl
@[simp] theorem State.latchFrame_hostData (s : State) (f : Vector Byte 19) : (s.latchFrame f).hostData = s.hostData := rfl
@[simp] theorem State.latchFrame_decoderSide (s : State) (f : Vector Byte 19) : (s.latchFrame f).decoderSide = s.decoderSide := rfl
@[simp] theorem State.latchFrame_hostSide (s : State) (f : Vector Byte 19) : (s.latchFrame f).hostSide = s.hostSide := rfl

/-! latchResponse -/

@[simp] theorem State.latchResponse_txf (s : State) (raw : Vector Byte 10) : (s.latchResponse raw).txf = s.txf := rfl
@[simp] theorem State.latchResponse_txv (s : State) (raw : Vector Byte 10) : (s.latchResponse raw).txv = s.txv := rfl
@[simp] theorem State.latchResponse_rxst (s : State) (raw : Vector Byte 10) : (s.latchResponse raw).rxst = (verdict raw).1 := rfl
@[simp] theorem State.latchResponse_rxtag (s : State) (raw : Vector Byte 10) : (s.latchResponse raw).rxtag = (verdict raw).2 := rfl
@[simp] theorem State.latchResponse_rxp (s : State) (raw : Vector Byte 10) : (s.latchResponse raw).rxp = rawPayload raw := rfl
@[simp] theorem State.latchResponse_rxtb (s : State) (raw : Vector Byte 10) : (s.latchResponse raw).rxtb = raw[1] := rfl
@[simp] theorem State.latchResponse_rxcsc (s : State) (raw : Vector Byte 10) : (s.latchResponse raw).rxcsc = responseChecksum raw := rfl
@[simp] theorem State.latchResponse_rxcst (s : State) (raw : Vector Byte 10) : (s.latchResponse raw).rxcst = raw[8] := rfl
@[simp] theorem State.latchResponse_pm25 (s : State) (raw : Vector Byte 10) : (s.latchResponse raw).pm25 = rawPm25 raw := rfl
@[simp] theorem State.latchResponse_pm10 (s : State) (raw : Vector Byte 10) : (s.latchResponse raw).pm10 = rawPm10 raw := rfl
@[simp] theorem State.latchResponse_devid (s : State) (raw : Vector Byte 10) : (s.latchResponse raw).devid = rawDevid raw := rfl
@[simp] theorem State.latchResponse_rdv (s : State) (raw : Vector Byte 10) : (s.latchResponse raw).rdv = readingValid (verdict raw).1 (verdict raw).2 := rfl
@[simp] theorem State.latchResponse_inbox (s : State) (raw : Vector Byte 10) : (s.latchResponse raw).inbox = s.inbox := rfl
@[simp] theorem State.latchResponse_hostData (s : State) (raw : Vector Byte 10) : (s.latchResponse raw).hostData = s.hostData := rfl
@[simp] theorem State.latchResponse_encoderSide (s : State) (raw : Vector Byte 10) : (s.latchResponse raw).encoderSide = s.encoderSide := rfl
@[simp] theorem State.latchResponse_hostSide (s : State) (raw : Vector Byte 10) : (s.latchResponse raw).hostSide = s.hostSide := rfl

/-! resetRegisters -/

@[simp] theorem State.resetRegisters_txf (s : State) : (s.resetRegisters).txf = State.reset.txf := rfl
@[simp] theorem State.resetRegisters_txv (s : State) : (s.resetRegisters).txv = State.reset.txv := rfl
@[simp] theorem State.resetRegisters_rxst (s : State) : (s.resetRegisters).rxst = State.reset.rxst := rfl
@[simp] theorem State.resetRegisters_rxtag (s : State) : (s.resetRegisters).rxtag = State.reset.rxtag := rfl
@[simp] theorem State.resetRegisters_rxp (s : State) : (s.resetRegisters).rxp = State.reset.rxp := rfl
@[simp] theorem State.resetRegisters_rxtb (s : State) : (s.resetRegisters).rxtb = State.reset.rxtb := rfl
@[simp] theorem State.resetRegisters_rxcsc (s : State) : (s.resetRegisters).rxcsc = State.reset.rxcsc := rfl
@[simp] theorem State.resetRegisters_rxcst (s : State) : (s.resetRegisters).rxcst = State.reset.rxcst := rfl
@[simp] theorem State.resetRegisters_pm25 (s : State) : (s.resetRegisters).pm25 = State.reset.pm25 := rfl
@[simp] theorem State.resetRegisters_pm10 (s : State) : (s.resetRegisters).pm10 = State.reset.pm10 := rfl
@[simp] theorem State.resetRegisters_devid (s : State) : (s.resetRegisters).devid = State.reset.devid := rfl
@[simp] theorem State.resetRegisters_rdv (s : State) : (s.resetRegisters).rdv = State.reset.rdv := rfl
@[simp] theorem State.resetRegisters_inbox (s : State) : (s.resetRegisters).inbox = s.inbox := rfl
@[simp] theorem State.resetRegisters_hostData (s : State) : (s.resetRegisters).hostData = s.hostData := rfl
@[simp] theorem State.resetRegisters_hostSide (s : State) : (s.resetRegisters).hostSide = s.hostSide := rfl

/-! consume -/

@[simp] theorem State.consume_txf (s : State) : (s.consume).txf = s.txf := rfl
@[simp] theorem State.consume_txv (s : State) : (s.consume).txv = s.txv := rfl
@[simp] theorem State.consume_rxst (s : State) : (s.consume).rxst = s.rxst := rfl
@[simp] theorem State.consume_rxtag (s : State) : (s.consume).rxtag = s.rxtag := rfl
@[simp] theorem State.consume_rxp (s : State) : (s.consume).rxp = s.rxp := rfl
@[simp] theorem State.consume_rxtb (s : State) : (s.consume).rxtb = s.rxtb := rfl
@[simp] theorem State.consume_rxcsc (s : State) : (s.consume).rxcsc = s.rxcsc := rfl
@[simp] theorem State.consume_rxcst (s : State) : (s.consume).rxcst = s.rxcst := rfl
@[simp] theorem State.consume_pm25 (s : State) : (s.consume).pm25 = s.pm25 := rfl
@[simp] theorem State.consume_pm10 (s : State) : (s.consume).pm10 = s.pm10 := rfl
@[simp] theorem State.consume_devid (s : State) : (s.consume).devid = s.devid := rfl
@[simp] theorem State.consume_rdv (s : State) : (s.consume).rdv = s.rdv := rfl
@[simp] theorem State.consume_inbox (s : State) : (s.consume).inbox = s.inbox.tail := rfl
@[simp] theorem State.consume_hostData (s : State) : (s.consume).hostData = s.hostData := rfl
@[simp] theorem State.consume_encoderSide (s : State) : (s.consume).encoderSide = s.encoderSide := rfl
@[simp] theorem State.consume_decoderSide (s : State) : (s.consume).decoderSide = s.decoderSide := rfl

/-! present -/

@[simp] theorem State.present_txf (s : State) (r : Request) : (s.present r).txf = s.txf := rfl
@[simp] theorem State.present_txv (s : State) (r : Request) : (s.present r).txv = s.txv := rfl
@[simp] theorem State.present_rxst (s : State) (r : Request) : (s.present r).rxst = s.rxst := rfl
@[simp] theorem State.present_rxtag (s : State) (r : Request) : (s.present r).rxtag = s.rxtag := rfl
@[simp] theorem State.present_rxp (s : State) (r : Request) : (s.present r).rxp = s.rxp := rfl
@[simp] theorem State.present_rxtb (s : State) (r : Request) : (s.present r).rxtb = s.rxtb := rfl
@[simp] theorem State.present_rxcsc (s : State) (r : Request) : (s.present r).rxcsc = s.rxcsc := rfl
@[simp] theorem State.present_rxcst (s : State) (r : Request) : (s.present r).rxcst = s.rxcst := rfl
@[simp] theorem State.present_pm25 (s : State) (r : Request) : (s.present r).pm25 = s.pm25 := rfl
@[simp] theorem State.present_pm10 (s : State) (r : Request) : (s.present r).pm10 = s.pm10 := rfl
@[simp] theorem State.present_devid (s : State) (r : Request) : (s.present r).devid = s.devid := rfl
@[simp] theorem State.present_rdv (s : State) (r : Request) : (s.present r).rdv = s.rdv := rfl
@[simp] theorem State.present_inbox (s : State) (r : Request) : (s.present r).inbox = r :: s.inbox := rfl
@[simp] theorem State.present_hostData (s : State) (r : Request) : (s.present r).hostData = s.hostData := rfl
@[simp] theorem State.present_encoderSide (s : State) (r : Request) : (s.present r).encoderSide = s.encoderSide := rfl
@[simp] theorem State.present_decoderSide (s : State) (r : Request) : (s.present r).decoderSide = s.decoderSide := rfl

/-! withInbox -/

@[simp] theorem State.withInbox_txf (s : State) (rs : List Request) : (s.withInbox rs).txf = s.txf := rfl
@[simp] theorem State.withInbox_txv (s : State) (rs : List Request) : (s.withInbox rs).txv = s.txv := rfl
@[simp] theorem State.withInbox_rxst (s : State) (rs : List Request) : (s.withInbox rs).rxst = s.rxst := rfl
@[simp] theorem State.withInbox_rxtag (s : State) (rs : List Request) : (s.withInbox rs).rxtag = s.rxtag := rfl
@[simp] theorem State.withInbox_rxp (s : State) (rs : List Request) : (s.withInbox rs).rxp = s.rxp := rfl
@[simp] theorem State.withInbox_rxtb (s : State) (rs : List Request) : (s.withInbox rs).rxtb = s.rxtb := rfl
@[simp] theorem State.withInbox_rxcsc (s : State) (rs : List Request) : (s.withInbox rs).rxcsc = s.rxcsc := rfl
@[simp] theorem State.withInbox_rxcst (s : State) (rs : List Request) : (s.withInbox rs).rxcst = s.rxcst := rfl
@[simp] theorem State.withInbox_pm25 (s : State) (rs : List Request) : (s.withInbox rs).pm25 = s.pm25 := rfl
@[simp] theorem State.withInbox_pm10 (s : State) (rs : List Request) : (s.withInbox rs).pm10 = s.pm10 := rfl
@[simp] theorem State.withInbox_devid (s : State) (rs : List Request) : (s.withInbox rs).devid = s.devid := rfl
@[simp] theorem State.withInbox_rdv (s : State) (rs : List Request) : (s.withInbox rs).rdv = s.rdv := rfl
@[simp] theorem State.withInbox_inbox (s : State) (rs : List Request) : (s.withInbox rs).inbox = rs := rfl
@[simp] theorem State.withInbox_hostData (s : State) (rs : List Request) : (s.withInbox rs).hostData = s.hostData := rfl
@[simp] theorem State.withInbox_encoderSide (s : State) (rs : List Request) : (s.withInbox rs).encoderSide = s.encoderSide := rfl
@[simp] theorem State.withInbox_decoderSide (s : State) (rs : List Request) : (s.withInbox rs).decoderSide = s.decoderSide := rfl

/-! deliver -/

@[simp] theorem State.deliver_txf (s : State) (v : ReadValue) : (s.deliver v).txf = s.txf := rfl
@[simp] theorem State.deliver_txv (s : State) (v : ReadValue) : (s.deliver v).txv = s.txv := rfl
@[simp] theorem State.deliver_rxst (s : State) (v : ReadValue) : (s.deliver v).rxst = s.rxst := rfl
@[simp] theorem State.deliver_rxtag (s : State) (v : ReadValue) : (s.deliver v).rxtag = s.rxtag := rfl
@[simp] theorem State.deliver_rxp (s : State) (v : ReadValue) : (s.deliver v).rxp = s.rxp := rfl
@[simp] theorem State.deliver_rxtb (s : State) (v : ReadValue) : (s.deliver v).rxtb = s.rxtb := rfl
@[simp] theorem State.deliver_rxcsc (s : State) (v : ReadValue) : (s.deliver v).rxcsc = s.rxcsc := rfl
@[simp] theorem State.deliver_rxcst (s : State) (v : ReadValue) : (s.deliver v).rxcst = s.rxcst := rfl
@[simp] theorem State.deliver_pm25 (s : State) (v : ReadValue) : (s.deliver v).pm25 = s.pm25 := rfl
@[simp] theorem State.deliver_pm10 (s : State) (v : ReadValue) : (s.deliver v).pm10 = s.pm10 := rfl
@[simp] theorem State.deliver_devid (s : State) (v : ReadValue) : (s.deliver v).devid = s.devid := rfl
@[simp] theorem State.deliver_rdv (s : State) (v : ReadValue) : (s.deliver v).rdv = s.rdv := rfl
@[simp] theorem State.deliver_inbox (s : State) (v : ReadValue) : (s.deliver v).inbox = s.inbox := rfl
@[simp] theorem State.deliver_hostData (s : State) (v : ReadValue) : (s.deliver v).hostData = some v := rfl
@[simp] theorem State.deliver_encoderSide (s : State) (v : ReadValue) : (s.deliver v).encoderSide = s.encoderSide := rfl
@[simp] theorem State.deliver_decoderSide (s : State) (v : ReadValue) : (s.deliver v).decoderSide = s.decoderSide := rfl

/-! The flags at reset (R38). -/

@[simp] theorem State.reset_txv : State.reset.txv = false := rfl
@[simp] theorem State.reset_rxst : State.reset.rxst = Config.rxstIdle := rfl
@[simp] theorem State.reset_rxtag : State.reset.rxtag = Config.rxtagNone := rfl
@[simp] theorem State.reset_rdv : State.reset.rdv = false := rfl

/-- Two states with equal sides are equal. -/
theorem State.eq_of_sides {s t : State} (he : s.encoderSide = t.encoderSide) (hd : s.decoderSide = t.decoderSide)
    (hh : s.hostSide = t.hostSide) : s = t := by
  cases s; cases t
  simp only [encoderSide, decoderSide, hostSide, EncoderSide.mk.injEq, DecoderSide.mk.injEq, HostSide.mk.injEq] at he hd hh
  simp [he, hd, hh]

end Sys2Proof.Machine
end

