-- ==== Sys2Proof/Laws/Ops.lean ====
section
/-! SUPPORT. Everything each shared operation can do, once; later proofs cite these instead of unfolding it. -/

namespace Sys2Proof.Machine

/-- Under this spec's value of ENC_REFUSE_UNKNOWN_OPID, `encodeCommand` always latches its frame (R100, R105). -/
theorem encodeCommand_eq (o : Byte) (p : Vector Byte 12) (a b : Byte) (s : State) :
    encodeCommand o p a b s = .next (s.latchFrame (commandFrame o p a b)) := rfl

theorem encodeDefault_eq (o : Byte) (p : Vector Byte 12) (s : State) :
    encodeDefault o p s = .next (s.latchFrame (commandFrame o p Config.defaultAddr Config.defaultAddr)) := rfl

theorem decodeResponse_eq (raw : Vector Byte 10) (s : State) :
    decodeResponse raw s = .next (s.latchResponse raw) := rfl

/-- A host read answers the delivered value or its fault, by `holdsValue`. -/
theorem readResult_cases (r : ResultReg) (s : State) :
    (s.holdsValue r = true ∧ readResult r s = .next (s.deliver (s.valueOf r))) ∨
    (s.holdsValue r = false ∧ readResult r s = .fault (.unspecifiedRead r)) := by
  cases h : s.holdsValue r <;> simp [readResult, h]

/-- What an instruction can do when it answers a next state: nothing, latch a frame, or latch a response. -/
theorem exec_cases {i : Instr} {s t : State} (h : exec i s = .next t) :
    (i = .nop ∧ t = s) ∨
    (i.isEncode = true ∧ ∃ o p a b, i.expand = .enc o p a b ∧ t = s.latchFrame (commandFrame o p a b)) ∨
    (i.isDecode = true ∧ ∃ raw, i.expand = .dec raw ∧ t = s.latchResponse raw) := by
  cases i with
  | nop => exact .inl ⟨rfl, by simpa [exec, execNop] using h.symm⟩
  | dec raw => exact .inr (.inr ⟨rfl, raw, rfl, (Host.Outcome.next.inj h).symm⟩)
  | rspData p c => exact .inr (.inr ⟨rfl, _, rfl, (Host.Outcome.next.inj h).symm⟩)
  | rspSetting p c => exact .inr (.inr ⟨rfl, _, rfl, (Host.Outcome.next.inj h).symm⟩)
  | cmdSetPeriod n =>
    simp only [exec, execCmdSetPeriod] at h
    split at h
    · exact .inr (.inl ⟨rfl, _, _, _, _, rfl, (Host.Outcome.next.inj h).symm⟩)
    · cases h
  | _ => exact .inr (.inl ⟨rfl, _, _, _, _, rfl, (Host.Outcome.next.inj h).symm⟩)

/-- No instruction faults, and only CMD_SET_PERIOD out of its range refuses. -/
theorem exec_stops {i : Instr} {s : State} (h : ∀ t, exec i s ≠ .next t) :
    ∃ n, i = .cmdSetPeriod n ∧ ¬ minutesAdmitted n ∧ exec i s = .refused (.minutesOutOfRange n) := by
  cases i with
  | cmdSetPeriod n =>
    by_cases hn : minutesAdmitted n
    · exact absurd (by simp only [exec, execCmdSetPeriod, if_pos hn]; rfl) (h _)
    · exact ⟨n, rfl, hn, by simp only [exec, execCmdSetPeriod, if_neg hn]⟩
  | _ => exact absurd rfl (h _)

/-- The five answers of `verdict`, each with what it needs of the operand. -/
theorem verdict_cases (raw : Vector Byte 10) :
    (framed raw = false ∧ verdict raw = (Config.rxstErrFraming, Config.rxtagNone)) ∨
    (framed raw = true ∧ checksumMatches raw = false ∧ verdict raw = (Config.rxstErrChecksum, Config.rxtagNone)) ∨
    (framed raw = true ∧ checksumMatches raw = true ∧ raw[1] = Config.tagData ∧
      verdict raw = (Config.rxstOk, Config.rxtagData)) ∨
    (framed raw = true ∧ checksumMatches raw = true ∧ raw[1] = Config.tagSetting ∧
      verdict raw = (Config.rxstOk, Config.rxtagSetting)) ∨
    (framed raw = true ∧ checksumMatches raw = true ∧ raw[1] ≠ Config.tagData ∧ raw[1] ≠ Config.tagSetting ∧
      verdict raw = (Config.rxstErrType, Config.rxtagNone)) := by
  unfold verdict
  cases hf : framed raw
  · simp
  · cases hc : checksumMatches raw
    · simp
    · by_cases hd : raw[1] = Config.tagData
      · exact .inr (.inr (.inl ⟨rfl, rfl, hd, by simp [hd]⟩))
      · by_cases hs : raw[1] = Config.tagSetting
        · exact .inr (.inr (.inr (.inl ⟨rfl, rfl, hs, by simp [hs]⟩)))
        · refine .inr (.inr (.inr (.inr ⟨rfl, rfl, hd, hs, ?_⟩)))
          simp only [beq_eq_false_iff_ne.mpr hd, beq_eq_false_iff_ne.mpr hs]
          rfl

theorem framed_iff (raw : Vector Byte 10) : framed raw = true ↔ raw[0] = Config.hdr ∧ raw[9] = Config.tail := by
  simp [framed]

theorem checksumMatches_iff (raw : Vector Byte 10) : checksumMatches raw = true ↔ raw[8] = responseChecksum raw := by
  simp [checksumMatches]

/-- The payload bytes of an operand, as a list, are those the checksum covers (R92). -/
theorem rawPayload_toList (raw : Vector Byte 10) :
    (rawPayload raw).toList = [raw[2], raw[3], raw[4], raw[5], raw[6], raw[7]] := by
  simp [rawPayload]

/-- The body bytes of a produced frame, frame indices 2 to 16 (R65). -/
theorem commandFrame_body (o : Byte) (p : Vector Byte 12) (a b : Byte) :
    ((commandFrame o p a b).toList.drop 2).take 15 = commandBody o p a b := by
  simp [commandFrame, commandBody]

end Sys2Proof.Machine
end

