-- ==== Sys2Proof/Laws/PerInstr.lean ====
section
/-! SUPPORT. Facts about every instruction as a term, one lemma per constructor.

EncodeSpells: an instruction's words are one whole descriptor, of the length its operation byte tells (30_encoding.md R75).
ExpandOnce: a pseudo-instruction or frame row expands to one of the three operations, which expands to itself
(41_encode.md section 2). -/

namespace Sys2Proof.Laws

def EncodeSpells.Statement (i : Instr) : Prop := Machine.spellsOperation (encode i) = true

theorem EncodeSpells.nop : EncodeSpells.Statement .nop := by rfl
theorem EncodeSpells.enc (o p a b) : EncodeSpells.Statement (.enc o p a b) := by rfl
theorem EncodeSpells.dec (raw) : EncodeSpells.Statement (.dec raw) := by rfl
theorem EncodeSpells.encb (o p) : EncodeSpells.Statement (.encb o p) := by rfl
theorem EncodeSpells.cmdFrame (o p a b) : EncodeSpells.Statement (.cmdFrame o p a b) := by rfl
theorem EncodeSpells.cmdGetMode : EncodeSpells.Statement .cmdGetMode := by rfl
theorem EncodeSpells.cmdSetModeActive : EncodeSpells.Statement .cmdSetModeActive := by rfl
theorem EncodeSpells.cmdSetModeQuery : EncodeSpells.Statement .cmdSetModeQuery := by rfl
theorem EncodeSpells.cmdQuery : EncodeSpells.Statement .cmdQuery := by rfl
theorem EncodeSpells.cmdSetId (p) : EncodeSpells.Statement (.cmdSetId p) := by rfl
theorem EncodeSpells.cmdGetSleep : EncodeSpells.Statement .cmdGetSleep := by rfl
theorem EncodeSpells.cmdSleep : EncodeSpells.Statement .cmdSleep := by rfl
theorem EncodeSpells.cmdWork : EncodeSpells.Statement .cmdWork := by rfl
theorem EncodeSpells.cmdGetPeriod : EncodeSpells.Statement .cmdGetPeriod := by rfl
theorem EncodeSpells.cmdSetPeriod (n) : EncodeSpells.Statement (.cmdSetPeriod n) := by rfl
theorem EncodeSpells.rspData (p c) : EncodeSpells.Statement (.rspData p c) := by rfl
theorem EncodeSpells.rspSetting (p c) : EncodeSpells.Statement (.rspSetting p c) := by rfl

def ExpandOnce.Statement (i : Instr) : Prop := i.expand.expand = i.expand ∧ encode i.expand = encode i

theorem ExpandOnce.nop : ExpandOnce.Statement .nop := ⟨rfl, rfl⟩
theorem ExpandOnce.enc (o p a b) : ExpandOnce.Statement (.enc o p a b) := ⟨rfl, rfl⟩
theorem ExpandOnce.dec (raw) : ExpandOnce.Statement (.dec raw) := ⟨rfl, rfl⟩
theorem ExpandOnce.encb (o p) : ExpandOnce.Statement (.encb o p) := ⟨rfl, rfl⟩
theorem ExpandOnce.cmdFrame (o p a b) : ExpandOnce.Statement (.cmdFrame o p a b) := ⟨rfl, rfl⟩
theorem ExpandOnce.cmdGetMode : ExpandOnce.Statement .cmdGetMode := ⟨rfl, rfl⟩
theorem ExpandOnce.cmdSetModeActive : ExpandOnce.Statement .cmdSetModeActive := ⟨rfl, rfl⟩
theorem ExpandOnce.cmdSetModeQuery : ExpandOnce.Statement .cmdSetModeQuery := ⟨rfl, rfl⟩
theorem ExpandOnce.cmdQuery : ExpandOnce.Statement .cmdQuery := ⟨rfl, rfl⟩
theorem ExpandOnce.cmdSetId (p) : ExpandOnce.Statement (.cmdSetId p) := ⟨rfl, rfl⟩
theorem ExpandOnce.cmdGetSleep : ExpandOnce.Statement .cmdGetSleep := ⟨rfl, rfl⟩
theorem ExpandOnce.cmdSleep : ExpandOnce.Statement .cmdSleep := ⟨rfl, rfl⟩
theorem ExpandOnce.cmdWork : ExpandOnce.Statement .cmdWork := ⟨rfl, rfl⟩
theorem ExpandOnce.cmdGetPeriod : ExpandOnce.Statement .cmdGetPeriod := ⟨rfl, rfl⟩
theorem ExpandOnce.cmdSetPeriod (n) : ExpandOnce.Statement (.cmdSetPeriod n) := ⟨rfl, rfl⟩
theorem ExpandOnce.rspData (p c) : ExpandOnce.Statement (.rspData p c) := ⟨rfl, rfl⟩
theorem ExpandOnce.rspSetting (p c) : ExpandOnce.Statement (.rspSetting p c) := ⟨rfl, rfl⟩

end Sys2Proof.Laws
end

