-- ==== Sys2Proof/Laws/Step.lean ====
section
/-! SUPPORT. Everything one host interaction can do. -/

namespace Sys2Proof.Machine

/-- Running a descriptor answers a next state only by running the one instruction it spells. -/
theorem issue_next {d : List Byte} {s t : State} (h : issue d s = .next t) :
    ∃ i, decode d = .instr i [] ∧ exec i s = .next t := by
  unfold issue at h
  split at h
  · next i hd => exact ⟨i, hd, h⟩
  · cases h
  · cases h

/-- What an interaction can do when it is served. -/
theorem serve_next {r : Request} {s t : State} (h : serve r s = .next t) :
    (∃ d i, r = .issue d ∧ decode d = .instr i [] ∧ exec i s = .next t) ∨
    (r = .reset ∧ t = s.resetRegisters) ∨
    (∃ x, r = .read x ∧ s.holdsValue x = true ∧ t = s.deliver (s.valueOf x)) := by
  cases r with
  | issue d =>
    obtain ⟨i, hd, he⟩ := issue_next h
    exact .inl ⟨d, i, rfl, hd, he⟩
  | reset => exact .inr (.inl ⟨rfl, (Host.Outcome.next.inj h).symm⟩)
  | read x =>
    rcases readResult_cases x s with ⟨hv, he⟩ | ⟨_, he⟩
    · exact .inr (.inr ⟨x, rfl, hv, (Host.Outcome.next.inj (he.symm.trans h)).symm⟩)
    · exact absurd (he.symm.trans h) (by simp)
  | concurrent a b => cases h
  | resetDuring d => cases h

/-- An interaction leaves the pending ones as they are. -/
theorem serve_inbox {r : Request} {s t : State} (h : serve r s = .next t) : t.inbox = s.inbox := by
  rcases serve_next h with ⟨d, i, _, _, he⟩ | ⟨_, rfl⟩ | ⟨x, _, _, rfl⟩
  · rcases exec_cases he with ⟨_, rfl⟩ | ⟨_, _, _, _, _, _, rfl⟩ | ⟨_, _, _, rfl⟩ <;> rfl
  · rfl
  · rfl

/-- An interaction changes a unit's registers only if it reaches that unit (R36). -/
theorem serve_sides {r : Request} {s t : State} (h : serve r s = .next t) :
    (t.encoderSide = s.encoderSide ∨ r.reachesEncoder = true) ∧ (t.decoderSide = s.decoderSide ∨ r.reachesDecoder = true) := by
  rcases serve_next h with ⟨d, i, rfl, hd, he⟩ | ⟨rfl, rfl⟩ | ⟨x, rfl, _, rfl⟩
  · rcases decode_cases hd with ⟨rfl, rfl⟩ | ⟨o, p, a, b, rfl, rfl⟩ | ⟨raw, rfl, rfl⟩
    · obtain rfl := Host.Outcome.next.inj he
      exact ⟨.inl rfl, .inl rfl⟩
    · refine ⟨.inr rfl, .inl ?_⟩
      rcases exec_cases he with ⟨_, rfl⟩ | ⟨_, _, _, _, _, _, rfl⟩ | ⟨_, _, hx, _⟩
      · rfl
      · rfl
      · rw [nameEnc_expand] at hx; cases hx
    · refine ⟨.inl ?_, .inr rfl⟩
      rcases exec_cases he with ⟨_, rfl⟩ | ⟨_, _, _, _, _, hx, _⟩ | ⟨_, _, _, rfl⟩
      · rfl
      · rw [nameDec_expand] at hx; cases hx
      · rfl
  · exact ⟨.inr rfl, .inr rfl⟩
  · exact ⟨.inl rfl, .inl rfl⟩

theorem withInbox_self {s : State} {rs : List Request} (h : s.inbox = rs) : s.withInbox rs = s := by
  subst h; rfl

/-! One more step of a run, by the step's answer. -/

theorem host_run_next {M : Host.Core} {k : Nat} {s t : M.State} (h : M.step s = .next t) :
    M.run (k + 1) s = M.run k t := by rw [Host.Core.run, h]

theorem host_run_fault {M : Host.Core} {k : Nat} {s : M.State} {f : M.Fault} (h : M.step s = .fault f) :
    M.run (k + 1) s = .fault f := by rw [Host.Core.run, h]

theorem host_run_refused {M : Host.Core} {k : Nat} {s : M.State} {q : M.Refusal} (h : M.step s = .refused q) :
    M.run (k + 1) s = .refused q := by rw [Host.Core.run, h]

/-- The runs claims speak of are the host's own. -/
theorem core_run_eq (k : Nat) (s : State) : Sys2Proof.core.run k s = runSteps k s := by
  induction k generalizing s with
  | zero => rfl
  | succ k ih =>
    cases h : step s with
    | next t =>
      have hr : runSteps (k + 1) s = runSteps k t := by rw [runSteps, h]
      exact (host_run_next (M := Sys2Proof.core) h).trans ((ih t).trans hr.symm)
    | fault f =>
      have hr : runSteps (k + 1) s = .fault f := by rw [runSteps, h]
      exact (host_run_fault (M := Sys2Proof.core) h).trans hr.symm
    | refused q =>
      have hr : runSteps (k + 1) s = .refused q := by rw [runSteps, h]
      exact (host_run_refused (M := Sys2Proof.core) h).trans hr.symm

theorem runOver_nil (s : State) : runOver [] s = .next (s.withInbox []) := rfl

/-- A run over a first interaction and others serves the first and runs the others from there. -/
theorem runOver_cons (r : Request) (rs : List Request) (s : State) :
    runOver (r :: rs) s = match serve r (s.withInbox rs) with
      | .next u => runOver rs u
      | .fault f => .fault f
      | .refused q => .refused q := by
  have hstep : step (s.withInbox (r :: rs)) = serve r (s.withInbox rs) := rfl
  rw [runOver, List.length_cons, runSteps, hstep]
  cases hu : serve r (s.withInbox rs) with
  | next u =>
    show runSteps rs.length u = runOver rs u
    have hi : u.inbox = rs := serve_inbox hu
    rw [runOver, withInbox_self hi]
  | fault f => rfl
  | refused q => rfl

/-- A run that reaches its end served its first interaction and ran the others from there. -/
theorem runOver_cons_next {r : Request} {rs : List Request} {s t : State} :
    runOver (r :: rs) s = .next t ↔ ∃ u, serve r (s.withInbox rs) = .next u ∧ runOver rs u = .next t := by
  rw [runOver_cons]
  cases serve r (s.withInbox rs) <;> simp

end Sys2Proof.Machine
end

