-- ==== Sys2Proof/Tests/Slice0.lean ====
section
/-! SUPPORT. The model's own tests. Expected results are the vectors of spec/95_test_vectors.md (named K, E, B, D, X, P there),
or words written out from the encodings of 30_encoding.md. The second half gives, for every statement with hypotheses, a concrete
state and operands that meet them. -/

namespace Sys2Proof.Tests

open Sys2Proof Sys2Proof.Machine

/-! ## Helpers -/

/-- The state an answer gives, if it gives one. -/
def after : Answer → Option State
  | .next t => some t
  | .fault _ => none
  | .refused _ => none

/-- The refusal an answer gives, if it gives one. -/
def refusal : Answer → Option Refusal
  | .next _ => none
  | .fault _ => none
  | .refused q => some q

/-- The fault an answer gives, if it gives one. -/
def faultOf : Answer → Option Fault
  | .next _ => none
  | .fault f => some f
  | .refused _ => none

/-- One step from reset with a descriptor presented. -/
def stepOn (d : List Byte) : Answer := step (State.reset.present (.issue d))

/-- TXF and TXV after that step. -/
def frameAfter (d : List Byte) : Option (List Byte × Bool) := (after (stepOn d)).map fun t => (t.txf.toList, t.txv)

/-- The canonical DATA frame (D-01). -/
def rawD01 : Vector Byte 10 := #v[0xAA, 0xC0, 0xD4, 0x04, 0x3A, 0x0A, 0xDB, 0x0A, 0x01, 0xAB]

/-- The state after D-01 and CMD_QUERY from reset (X-06). -/
def busy : State := (State.reset.latchResponse rawD01).latchFrame (commandFrame 0x04 zeroPayload 0xFF 0xFF)

/-! ## Well-formedness: each check with a term it refuses -/

theorem test_wellFormed_refuses_minutes_31 : (Instr.cmdSetPeriod 31).wellFormed = false := by decide
theorem test_wellFormed_refuses_minutes_negative : (Instr.cmdSetPeriod (-1)).wellFormed = false := by decide
theorem test_wellFormed_admits_minutes_0_and_30 :
    (Instr.cmdSetPeriod 0).wellFormed = true ∧ (Instr.cmdSetPeriod 30).wellFormed = true := by decide

/-! ## Decoding: words written out from R60 to R63, R68, R70 -/

theorem test_decode_nop : decode [0x00] = .instr .nop [] := by decide
theorem test_decode_enc : decode [0x01, 0x02, 1, 2, 3, 4, 5, 6, 7, 8, 9, 10, 11, 12, 0xFF, 0xFE] =
    .instr (.enc 0x02 #v[1, 2, 3, 4, 5, 6, 7, 8, 9, 10, 11, 12] 0xFF 0xFE) [] := by decide
theorem test_decode_dec : decode [0x02, 1, 2, 3, 4, 5, 6, 7, 8, 9, 10] =
    .instr (.dec #v[1, 2, 3, 4, 5, 6, 7, 8, 9, 10]) [] := by decide
theorem test_decode_encb : decode [0x01, 0x02, 1, 2, 3, 4, 5, 6, 7, 8, 9, 10, 11, 12, 0xFF, 0xFF] =
    .instr (.encb 0x02 #v[1, 2, 3, 4, 5, 6, 7, 8, 9, 10, 11, 12]) [] := by decide
theorem test_decode_cmdGetMode :
    decode [0x01, 0x02, 0x00, 0x00, 0, 0, 0, 0, 0, 0, 0, 0, 0, 0, 0xFF, 0xFF] = .instr .cmdGetMode [] := by decide
theorem test_decode_cmdSetModeActive :
    decode [0x01, 0x02, 0x01, 0x00, 0, 0, 0, 0, 0, 0, 0, 0, 0, 0, 0xFF, 0xFF] = .instr .cmdSetModeActive [] := by decide
theorem test_decode_cmdSetModeQuery :
    decode [0x01, 0x02, 0x01, 0x01, 0, 0, 0, 0, 0, 0, 0, 0, 0, 0, 0xFF, 0xFF] = .instr .cmdSetModeQuery [] := by decide
theorem test_decode_cmdQuery :
    decode [0x01, 0x04, 0x00, 0x00, 0, 0, 0, 0, 0, 0, 0, 0, 0, 0, 0xFF, 0xFF] = .instr .cmdQuery [] := by decide
theorem test_decode_cmdSetId :
    decode [0x01, 0x05, 0, 0, 0, 0, 0, 0, 0, 0, 0, 0, 0xA0, 0x01, 0xFF, 0xFF] =
      .instr (.cmdSetId #v[0, 0, 0, 0, 0, 0, 0, 0, 0, 0, 0xA0, 0x01]) [] := by decide
theorem test_decode_cmdGetSleep :
    decode [0x01, 0x06, 0x00, 0x00, 0, 0, 0, 0, 0, 0, 0, 0, 0, 0, 0xFF, 0xFF] = .instr .cmdGetSleep [] := by decide
theorem test_decode_cmdSleep :
    decode [0x01, 0x06, 0x01, 0x00, 0, 0, 0, 0, 0, 0, 0, 0, 0, 0, 0xFF, 0xFF] = .instr .cmdSleep [] := by decide
theorem test_decode_cmdWork :
    decode [0x01, 0x06, 0x01, 0x01, 0, 0, 0, 0, 0, 0, 0, 0, 0, 0, 0xFF, 0xFF] = .instr .cmdWork [] := by decide
theorem test_decode_cmdGetPeriod :
    decode [0x01, 0x08, 0x00, 0x00, 0, 0, 0, 0, 0, 0, 0, 0, 0, 0, 0xFF, 0xFF] = .instr .cmdGetPeriod [] := by decide
theorem test_decode_cmdSetPeriod :
    decode [0x01, 0x08, 0x01, 0x1E, 0, 0, 0, 0, 0, 0, 0, 0, 0, 0, 0xFF, 0xFF] = .instr (.cmdSetPeriod 30) [] ∧
    decode [0x01, 0x08, 0x01, 0x1F, 0, 0, 0, 0, 0, 0, 0, 0, 0, 0, 0xFF, 0xFF] =
      .instr (.encb 0x08 #v[0x01, 0x1F, 0, 0, 0, 0, 0, 0, 0, 0, 0, 0]) [] := by decide
theorem test_decode_rspData : decode [0x02, 0xAA, 0xC0, 1, 2, 3, 4, 5, 6, 7, 0xAB] =
    .instr (.rspData #v[1, 2, 3, 4, 5, 6] 7) [] := by decide
theorem test_decode_rspSetting : decode [0x02, 0xAA, 0xC5, 1, 2, 3, 4, 5, 6, 7, 0xAB] =
    .instr (.rspSetting #v[1, 2, 3, 4, 5, 6] 7) [] := by decide
theorem test_decode_rejects : decode [] = .rejected .empty ∧ decode [0x03] = .rejected (.reserved 0x03) ∧
    decode [0x05, 1] = .rejected (.reserved 0x05) ∧ decode [0x01, 1, 2] = .rejected (.truncated 0x01) ∧
    decode [0x02, 1] = .rejected (.truncated 0x02) ∧ decode [0xAA, 0xB4] = .rejected (.reserved 0xAA) := by decide

/-- Table words, numbered from the first byte: the three operation bytes, and one frame row of each direction. -/
theorem test_decodeTableWord :
    decodeTableWord 8 0x00 = some .nop ∧
    decodeTableWord 8 0x01 = some (.enc 0 #v[0, 0, 0, 0, 0, 0, 0, 0, 0, 0, 0, 0] 0 0) ∧
    decodeTableWord 8 0x02 = some (.dec #v[0, 0, 0, 0, 0, 0, 0, 0, 0, 0]) ∧
    decodeTableWord 8 0x03 = none ∧
    decodeTableWord 128 0xFFFF0000000000000000000000000301 = some (.encb 0x03 zeroPayload) ∧
    decodeTableWord 152 0xAB00FFFF000000000000000000000004B4AA = none ∧
    decodeTableWord 152 0xAB00FFFF00000000000000000000000004B4AA = some .cmdQuery ∧
    decodeTableWord 152 0xAB00000000000000000000000000000003B4AA = some (.cmdFrame 0x03 zeroPayload 0 0) ∧
    decodeTableWord 80 0xAB00000000000000C0AA = some (.rspData #v[0, 0, 0, 0, 0, 0] 0) := by decide

theorem test_withFetchWord_runs :
    (after (step (State.reset.withFetchWord 8 0x02))).map State.rxst = some 2 ∧
    (after (step (State.reset.withFetchWord 8 0x01))).map State.txv = some true ∧
    after (step (State.reset.withFetchWord 8 0x00)) = some State.reset := by decide

/-! ## Encoder vectors -/

/-- E-01, E-02. -/
theorem test_enc :
    frameAfter [0x01, 0x04, 0, 0, 0, 0, 0, 0, 0, 0, 0, 0, 0, 0, 0x12, 0x34] =
      some ([0xAA, 0xB4, 0x04, 0, 0, 0, 0, 0, 0, 0, 0, 0, 0, 0, 0, 0x12, 0x34, 0x4A, 0xAB], true) ∧
    (frameAfter (0x01 :: List.replicate 15 0xFF)).map (fun f => f.1[17]?) = some (some 0xF1) := by decide
/-- E-04. -/
theorem test_encb :
    frameAfter [0x01, 0x03, 0, 0, 0, 0, 0, 0, 0, 0, 0, 0, 0, 0, 0xFF, 0xFF] =
      some ([0xAA, 0xB4, 0x03, 0, 0, 0, 0, 0, 0, 0, 0, 0, 0, 0, 0, 0xFF, 0xFF, 0x01, 0xAB], true) := by decide
/-- E-05, under the generic frame's name. -/
theorem test_cmdFrame :
    (after (exec (.cmdFrame 0x02 #v[1, 1, 0, 0, 0, 0, 0, 0, 0, 0, 0, 0] 0x00 0x00) State.reset)).map (fun t => t.txf.toList) =
      some [0xAA, 0xB4, 0x02, 1, 1, 0, 0, 0, 0, 0, 0, 0, 0, 0, 0, 0x00, 0x00, 0x04, 0xAB] := by decide

/-- The checksum byte and the first payload bytes of a builder's frame. -/
def builderBytes (i : Instr) : Option (List Byte) :=
  (after (stepOn (encode i))).map fun t => [t.txf[2], t.txf[3], t.txf[4], t.txf[17]]

/-- B-01 to B-04. -/
theorem test_builders_mode_and_query :
    builderBytes .cmdGetMode = some [0x02, 0x00, 0x00, 0x00] ∧
    builderBytes .cmdSetModeActive = some [0x02, 0x01, 0x00, 0x01] ∧
    builderBytes .cmdSetModeQuery = some [0x02, 0x01, 0x01, 0x02] ∧
    builderBytes .cmdQuery = some [0x04, 0x00, 0x00, 0x02] := by decide
/-- B-05. -/
theorem test_builder_setId :
    (frameAfter (encode (.cmdSetId #v[0, 0, 0, 0, 0, 0, 0, 0, 0, 0, 0xA0, 0x01]))).map (fun f => f.1.drop 12) =
      some [0x00, 0xA0, 0x01, 0xFF, 0xFF, 0xA4, 0xAB] := by decide
/-- B-06 to B-12. -/
theorem test_builders_sleep_and_period :
    builderBytes .cmdGetSleep = some [0x06, 0x00, 0x00, 0x04] ∧
    builderBytes .cmdSleep = some [0x06, 0x01, 0x00, 0x05] ∧
    builderBytes .cmdWork = some [0x06, 0x01, 0x01, 0x06] ∧
    builderBytes .cmdGetPeriod = some [0x08, 0x00, 0x00, 0x06] ∧
    builderBytes (.cmdSetPeriod 0) = some [0x08, 0x01, 0x00, 0x07] ∧
    builderBytes (.cmdSetPeriod 1) = some [0x08, 0x01, 0x01, 0x08] ∧
    builderBytes (.cmdSetPeriod 30) = some [0x08, 0x01, 0x1E, 0x25] := by decide
/-- B-13. -/
theorem test_setPeriod_31_refused : refusal (exec (.cmdSetPeriod 31) State.reset) = some (.minutesOutOfRange 31) := by decide

/-! ## Decoder vectors -/

/-- A row of the vectors' table: RXST, RXTAG, RDV, RXCSC, PM25, PM10, DEVID. -/
structure DecRow where
  rxst  : Status
  rxtag : Tag
  rdv   : Bool
  rxcsc : Byte
  pm25  : Half
  pm10  : Half
  devid : Half
  deriving DecidableEq, Repr

/-- What one DEC from reset leaves. -/
def decAfter (raw : List Byte) : Option DecRow :=
  (after (stepOn (0x02 :: raw))).map fun t => ⟨t.rxst, t.rxtag, t.rdv, t.rxcsc, t.pm25, t.pm10, t.devid⟩

/-- D-01, D-02, D-05, D-06, D-07, D-09, D-10, D-11. -/
theorem test_dec_results :
    decAfter [0xAA, 0xC0, 0xD4, 0x04, 0x3A, 0x0A, 0xDB, 0x0A, 0x01, 0xAB] = some ⟨1, 1, true, 0x01, 1236, 2618, 0x0ADB⟩ ∧
    decAfter [0xAA, 0xC0, 0xD4, 0x04, 0x3A, 0x0A, 0xDB, 0x0A, 0xA5, 0xAB] = some ⟨3, 0, false, 0x01, 1236, 2618, 0x0ADB⟩ ∧
    decAfter [0xAA, 0xC0, 0xD4, 0x04, 0x3A, 0x0A, 0xA1, 0x60, 0x1D, 0xAB] = some ⟨1, 1, true, 0x1D, 1236, 2618, 0x60A1⟩ ∧
    decAfter [0xAA, 0xC5, 0x02, 0x01, 0x01, 0x00, 0xFF, 0xFF, 0x02, 0xAB] = some ⟨1, 2, false, 0x02, 258, 1, 0xFFFF⟩ ∧
    decAfter [0xAA, 0xC0, 0xFF, 0xFF, 0xFF, 0xFF, 0xFF, 0xFF, 0xFA, 0xAB] =
      some ⟨1, 1, true, 0xFA, 65535, 65535, 0xFFFF⟩ ∧
    decAfter [0xAA, 0xC0, 0x80, 0x80, 0x00, 0x00, 0x00, 0x00, 0x00, 0xAB] = some ⟨1, 1, true, 0x00, 32896, 0, 0x0000⟩ ∧
    decAfter [0xAB, 0xC0, 0xD4, 0x04, 0x3A, 0x0A, 0xDB, 0x0A, 0x01, 0xAB] = some ⟨2, 0, false, 0x01, 1236, 2618, 0x0ADB⟩ ∧
    decAfter [0xAA, 0xC0, 0xD4, 0x04, 0x3A, 0x0A, 0xDB, 0x0A, 0x01, 0xAA] =
      some ⟨2, 0, false, 0x01, 1236, 2618, 0x0ADB⟩ := by decide

/-- D-12, D-13, D-14, D-15, D-16, D-18, D-20, D-23. -/
theorem test_dec_priorities :
    decAfter [0xAB, 0xC0, 0xD4, 0x04, 0x3A, 0x0A, 0xDB, 0x0A, 0xA5, 0xAB] = some ⟨2, 0, false, 0x01, 1236, 2618, 0x0ADB⟩ ∧
    decAfter [0xAA, 0xC1, 0xD4, 0x04, 0x3A, 0x0A, 0xDB, 0x0A, 0x01, 0xAB] = some ⟨4, 0, false, 0x01, 1236, 2618, 0x0ADB⟩ ∧
    decAfter [0xAA, 0xC1, 0xD4, 0x04, 0x3A, 0x0A, 0xDB, 0x0A, 0xA5, 0xAB] = some ⟨3, 0, false, 0x01, 1236, 2618, 0x0ADB⟩ ∧
    decAfter [0xAA, 0xB4, 0xD4, 0x04, 0x3A, 0x0A, 0xDB, 0x0A, 0x01, 0xAB] = some ⟨4, 0, false, 0x01, 1236, 2618, 0x0ADB⟩ ∧
    decAfter [0xAA, 0xC5, 0xD4, 0x04, 0x3A, 0x0A, 0xDB, 0x0A, 0x01, 0xAB] = some ⟨1, 2, false, 0x01, 1236, 2618, 0x0ADB⟩ ∧
    decAfter [0xAA, 0xC0, 0, 0, 0, 0, 0, 0, 0xFF, 0xAB] = some ⟨3, 0, false, 0x00, 0, 0, 0⟩ ∧
    decAfter [0, 0, 0, 0, 0, 0, 0, 0, 0, 0] = some ⟨2, 0, false, 0x00, 0, 0, 0⟩ ∧
    decAfter [0xAA, 0xC0, 0xE8, 0x03, 0xD0, 0x07, 0xFF, 0xFF, 0xC0, 0xAB] =
      some ⟨1, 1, true, 0xC0, 1000, 2000, 0xFFFF⟩ := by decide

/-- L1-3's captured bytes. -/
theorem test_dec_capture :
    (after (exec (.dec #v[0xAA, 0xC0, 0xD4, 0x04, 0x3A, 0x0A, 0xDB, 0x0A, 0xA5, 0xAB]) State.reset)).map
      (fun t => (t.rxp.toList, t.rxtb, t.rxcst)) = some ([0xD4, 0x04, 0x3A, 0x0A, 0xDB, 0x0A], 0xC0, 0xA5) := by decide

/-- K-01 to K-09. -/
theorem test_checksum_vectors :
    csum [0, 0, 0, 0, 0, 0] = 0x00 ∧ csum [0xD4, 0x04, 0x3A, 0x0A, 0xDB, 0x0A] = 0x01 ∧
    csum [0x80, 0x80, 0, 0, 0, 0] = 0x00 ∧ csum (List.replicate 6 0xFF) = 0xFA ∧ csum (List.replicate 15 0xFF) = 0xF1 ∧
    csum ([0x04] ++ List.replicate 12 0 ++ [0xFF, 0xFF]) = 0x02 ∧ csum (List.replicate 12 0 ++ [0xFF, 0xFF]) = 0xFE ∧
    csum [0x0A, 0x00, 0x14, 0x00, 0x34, 0x12] = 0x64 ∧ csum [0xE8, 0x03, 0xD0, 0x07, 0xFF, 0xFF] = 0xC0 := by decide

/-! ## NOP, reset, reads and refusals -/

/-- X-02. -/
theorem test_nop : after (step (busy.present (.issue [0x00]))) = some busy := by decide
/-- X-01. -/
theorem test_reset : (after (step (busy.present .reset))).map (fun t => (t.txv, t.rxst, t.rxtag, t.rdv)) =
    some (false, 0, 0, false) := by decide
/-- X-03, and a read that has a value (X-06). -/
theorem test_read_pm25 : faultOf (step (State.reset.present (.read .pm25))) = some (.unspecifiedRead .pm25) ∧
    (after (step (busy.present (.read .pm25)))).map State.hostData = some (some (.half 1236)) := by decide
/-- X-04, X-05. -/
theorem test_reserved : refusal (stepOn [0x03]) = some (.reservedOperation 0x03) ∧
    refusal (stepOn [0x05]) = some (.reservedOperation 0x05) := by decide
/-- R55, S5. -/
theorem test_concurrent : refusal (step (busy.present (.concurrent [0x00] [0x00]))) = some .concurrentIssue ∧
    refusal (step (busy.present (.resetDuring [0x00]))) = some .resetDuringOperation := by decide

/-- P3's first operation as an assembler line, and B-13. -/
theorem test_assembler :
    assemble (.dec [.byte 0xAA, .byte 0xC0, .byte 0xD4, .byte 0x04, .byte 0x3A, .byte 0x0A, .byte 0xDB, .byte 0x0A,
      .byte 0xA5, .byte 0xAB]) = .instr (.dec #v[0xAA, 0xC0, 0xD4, 0x04, 0x3A, 0x0A, 0xDB, 0x0A, 0xA5, 0xAB]) ∧
    assemble (.cmdSetId [.copies 0 10, .byte 0xA0, .byte 0x01]) =
      .instr (.cmdSetId #v[0, 0, 0, 0, 0, 0, 0, 0, 0, 0, 0xA0, 0x01]) ∧
    assemble (.cmdSetPeriod 31) = .refused (.minutesRange 31) ∧
    assemble (.encb 0x04 [.copies 0 11]) = .refused (.payloadLength 11) := by decide

/-! ## Witnesses: the hypotheses of each statement are met, clause by clause at the edges of their ranges -/

theorem witness_ReservedAndLegalEncodings :
    (opsel 0x03 = 3 ∨ mbz 0x03 ≠ 0) ∧ (opsel 0x04 = 3 ∨ mbz 0x04 ≠ 0) ∧ (opsel 0xFF = 3 ∨ mbz 0xFF ≠ 0) ∧
    Config.opidKnown 0x03 = false ∧ Config.opidKnown 0xFF = false ∧
    ((#v[0xAB, 0xC0, 0, 0, 0, 0, 0, 0, 0, 0xAB] : Vector Byte 10)[0] ≠ 0xAA) ∧
    ((0x02 : Byte) ≠ csum [0xD4, 0x04, 0x3A, 0x0A, 0xDB, 0x0A]) ∧
    ((0x01 : Byte) = csum [0xD4, 0x04, 0x3A, 0x0A, 0xDB, 0x0A]) ∧ ((0xC1 : Byte) ≠ 0xC0 ∧ (0xC1 : Byte) ≠ 0xC5) := by decide

theorem witness_DescriptorLengthIsExact : spellsOperation [0x00] = true ∧ spellsOperation [0x00, 0x00] = false ∧
    spellsOperation (0x01 :: List.replicate 15 0) = true ∧ spellsOperation (0x01 :: List.replicate 14 0) = false ∧
    spellsOperation (0x02 :: List.replicate 10 0) = true ∧ spellsOperation (0x02 :: List.replicate 11 0) = false ∧
    spellsOperation [0x03] = false ∧ spellsOperation [] = false := by decide

theorem witness_DecodeOfEncodeIsTheCanonicalName :
    (Instr.cmdSetPeriod 30).wellFormed = true ∧ (Instr.enc 0xFF (settingPayload 1 2) 0xFF 0xFF).wellFormed = true := by decide

theorem witness_EveryOperandSurvivesTheRoundTrip :
    ((0xFF : Byte) ≠ 0xFF ∨ (0xFE : Byte) ≠ 0xFF) ∧ ((0x00 : Byte) ≠ 0xFF ∨ (0xFF : Byte) ≠ 0xFF) ∧
    (∀ r ∈ builderRows, r.covers (commandFrame 0x03 zeroPayload 0xFF 0xFF).toList = false) ∧
    (∀ r ∈ builderRows, r.covers (commandFrame 0x02 (settingPayload 1 2) 0xFF 0xFF).toList = false) ∧
    (∀ r ∈ responseRows, r.covers (responseFrame 0xC1 #v[0, 0, 0, 0, 0, 0] 0).toList = false) := by decide

theorem witness_EncodeOfDecodeIsTheBytes :
    decode [0x02, 0xAA, 0xC0, 1, 2, 3, 4, 5, 6, 7, 0xAB, 0x00] = .instr (.rspData #v[1, 2, 3, 4, 5, 6] 7) [0x00] := by decide

theorem witness_TableRowsAreUnambiguous :
    (∃ r ∈ builderRows, r.covers (commandFrame 0x08 (settingPayload 1 30) 0xFF 0xFF).toList = true) ∧
    (∃ r ∈ responseRows, r.covers rawD01.toList = true) := by decide

theorem witness_OperationAndPseudoRowsCover :
    (∀ op ∈ [(0x00 : Byte), 0x01, 0x02], ∃ r ∈ operationRows, r.covers [op] = true) ∧
    (∀ op ∈ [(0x03 : Byte), 0x04, 0x80, 0xFF], ∀ r ∈ operationRows, r.covers [op] = false) ∧
    encbRow.covers (encode .cmdWork) = true ∧ encbRow.covers (encode (.encb 0x03 zeroPayload)) = true ∧
    encbRow.covers (encode (.enc 0x03 zeroPayload 0xFF 0xFE)) = false ∧
    encbRow.covers (encode (.enc 0x03 zeroPayload 0x7F 0xFF)) = false := by decide

theorem witness_TableRowNamesTheFrame :
    (∃ t, exec .cmdWork busy = .next t) ∧ (∃ t, exec (.cmdSetId zeroPayload) busy = .next t) ∧
    (∃ t, exec (.cmdSetPeriod 0) busy = .next t) ∧ (∃ t, exec (.cmdSetPeriod 30) busy = .next t) ∧
    (∃ t, exec (.enc 0x08 (settingPayload 1 30) 0xFF 0x00) busy = .next t) :=
  ⟨⟨_, rfl⟩, ⟨_, rfl⟩, ⟨_, rfl⟩, ⟨_, rfl⟩, ⟨_, rfl⟩⟩

theorem witness_StepRunsTheDecodedInstruction :
    (busy.present (.issue (encode .cmdWork))).inbox = .issue (encode .cmdWork) :: [] ∧
    decode (encode .cmdWork) = .instr .cmdWork [] ∧ busy.inbox = [] ∧
    decode (descriptorOfWord 8 0x02) = .instr (.dec #v[0, 0, 0, 0, 0, 0, 0, 0, 0, 0]) [] := by decide

theorem witness_StepServesTheOtherInteractions :
    (busy.present .reset).inbox = .reset :: [] ∧
    (busy.present (.concurrent [0x00] [0x00])).inbox = .concurrent [0x00] [0x00] :: [] ∧
    (busy.present (.resetDuring [0x00])).inbox = .resetDuring [0x00] :: [] := by decide

theorem witness_ChecksumIsTheTotalModulo256 :
    (∀ b ∈ [(0 : Byte), 0], b = 0) ∧ (([0x80, 0x80] : List Byte).map BitVec.toNat).sum = 256 ∧
    (List.replicate 15 (0xFF : Byte)).length ≤ 15 := by decide

theorem witness_ChecksumLaws : List.Perm [(1 : Byte), 2] [2, 1] := List.Perm.swap 2 1 []

/-- For the statements about an encoding instruction that answered a next state (CommandChecksumCoversTheBody,
EncConstantsAreFixed, UnitsShareNoState). -/
theorem witness_encode_next :
    (Instr.cmdSetPeriod 30).isEncode = true ∧ ∃ t, exec (.cmdSetPeriod 30) busy = .next t := ⟨rfl, _, rfl⟩

theorem witness_ResponseChecksumCoversThePayload :
    ((0xAB : Byte) ≠ 0xAA ∨ (0xAB : Byte) ≠ 0xAB) ∧ (0xC1 : Byte) ≠ 0xC0 ∧ (0xC1 : Byte) ≠ 0xC5 := by decide

theorem witness_TxvStaysUntilReset :
    busy.txv = true ∧ busy.request ≠ .reset ∧ (after (step busy)).isSome = true ∧
    Instr.cmdWork.isEncode = true ∧ (after (exec .cmdWork State.reset)).isSome = true ∧
    (after (exec .cmdWork busy)).isSome = true := by decide

theorem witness_UnknownOpidIsEncoded :
    ((0x03 : Byte) ≠ 0x02 ∧ (0x03 : Byte) ≠ 0x04 ∧ (0x03 : Byte) ≠ 0x05 ∧ (0x03 : Byte) ≠ 0x06 ∧ (0x03 : Byte) ≠ 0x08) ∧
    ((0x08 : Byte) = 0x02 ∨ (0x08 : Byte) = 0x04 ∨ (0x08 : Byte) = 0x05 ∨ (0x08 : Byte) = 0x06 ∨
      (0x08 : Byte) = 0x08) := by decide

theorem witness_WorkPeriodBuilders :
    (0 : Nat) ≤ 30 ∧ (30 : Nat) ≤ 30 ∧ ((-1 : Int) < 0 ∨ (-1 : Int) > 30) ∧ ((31 : Int) < 0 ∨ (31 : Int) > 30) := by decide

/-- For FramingErrors, ChecksumErrors, TypeClassification and StatusReportsTheFirstFailure: operands that reach each verdict. -/
theorem witness_each_verdict :
    (after (exec (.dec #v[0xAB, 0xC0, 0, 0, 0, 0, 0, 0, 0, 0xAB]) busy)).map State.rxst = some 2 ∧
    (after (exec (.dec #v[0xAA, 0xC0, 0, 0, 0, 0, 0, 0, 1, 0xAB]) busy)).map State.rxst = some 3 ∧
    (after (exec (.dec #v[0xAA, 0xC1, 0, 0, 0, 0, 0, 0, 0, 0xAB]) busy)).map State.rxst = some 4 ∧
    (after (exec (.dec #v[0xAA, 0xC0, 0, 0, 0, 0, 0, 0, 0, 0xAB]) busy)).map State.rxst = some 1 ∧
    (after (exec (.dec #v[0xAA, 0xC5, 0, 0, 0, 0, 0, 0, 0, 0xAB]) busy)).map State.rxtag = some 2 := by decide

/-- For ReadingValidity, DecDependsOnlyOnItsOperand, UnitsShareNoState and HostViewOfTheRegisters. -/
theorem witness_decode_next :
    (Instr.rspSetting #v[0, 0, 0, 0, 0, 0] 0).isDecode = true ∧
    (after (exec (.rspSetting #v[0, 0, 0, 0, 0, 0] 0) busy)).map (fun t => (t.rxst, t.rxtag)) = some (1, 2) ∧
    (after (exec (.rspSetting #v[0, 0, 0, 0, 0, 0] 0) State.reset)).isSome = true := by decide

theorem witness_ReadingIsExactTenths : busy.rdv = true ∧ State.reset.rdv = false := by decide

theorem witness_WellFormedResponsesDecode : (0x01 : Byte) ≠ csum (#v[0, 0, 0, 0, 0, 0] : Vector Byte 6).toList := by decide

/-- For EveryInstructionCompletes, NamesDoNotChangeTheEffect and EncodeAndDecodeCommute. -/
theorem witness_EncodeAndDecodeCommute :
    (Instr.cmdSetPeriod 0).isEncode = true ∧ (Instr.cmdSetPeriod 0).wellFormed = true ∧
    (Instr.dec rawD01).isDecode = true := by decide

theorem witness_ResetValues :
    (busy.present .reset).inbox = .reset :: [] ∧ (busy.present .reset).request = .reset ∧
    (State.reset.present .reset).request = .reset ∧ (after (step (busy.present .reset))).isSome = true ∧
    (after (step ((State.reset).present .reset))).isSome = true := by decide

theorem witness_ReadsBeforeTheFirstWriteFault :
    State.reset.txv = false ∧ busy.txv = true ∧ State.reset.rxst = 0 ∧ busy.rxst ≠ 0 ∧
    (busy.present (.issue (encode (.dec rawD01)))).request.reachesEncoder = false ∧
    (after (step (busy.present (.issue (encode (.dec rawD01)))))).isSome = true ∧
    (busy.present (.issue (encode .cmdWork))).request.reachesDecoder = false ∧
    (after (step (busy.present (.issue (encode .cmdWork))))).isSome = true := by decide

theorem witness_ModelReadsAgreeWithTheHardware :
    (after (step (busy.present (.read .pm25)))).map State.hostData = some (some (.half 1236)) ∧
    busy.hardwareReturns .pm25 (.half 1236) = true ∧ busy.hardwareReturns .pm25 (.half 0) = false ∧
    State.reset.txv = false ∧ State.reset.rxst = 0 ∧ (busy.present .reset).request = .reset ∧
    (after (step (busy.present .reset))).isSome = true ∧
    ResultReg.txf.fits (.bytes (List.replicate 19 0x5A)) = true ∧ ResultReg.pm25.fits (.half 0xFFFF) = true ∧
    State.reset.hardwareReturns .pm25 (.half 0xFFFF) = true ∧ State.reset.hardwareReturns .pm25 (.half 0) = true ∧
    State.reset.hardwareReturns .pm25 (.byte 0) = false := by decide

theorem witness_ReadsHaveNoSideEffect :
    (after (step (busy.present (.read .txf)))).isSome = true ∧
    (after (step (State.reset.present (.read .rxst)))).map State.hostData = some (some (.status 0)) := by decide

theorem witness_OnlyTheseStops :
    faultOf (step (State.reset.present (.read .txf))) = some (.unspecifiedRead .txf) ∧
    refusal (stepOn [0x03]) = some (.reservedOperation 0x03) ∧
    refusal (stepOn [0x00, 0x00]) = some (.malformedDescriptor 2) ∧
    refusal (stepOn []) = some (.malformedDescriptor 0) ∧
    refusal (stepOn [0x01]) = some (.malformedDescriptor 1) ∧
    refusal (step (busy.present (.concurrent [0x00] [0x00]))) = some .concurrentIssue ∧
    refusal (step (busy.present (.resetDuring [0x00]))) = some .resetDuringOperation := by decide

theorem witness_AdmittedInteractionsComplete :
    State.reset.admits (.read .txv) = true ∧ State.reset.admits (.read .txf) = false ∧
    busy.admits (.read .txf) = true ∧ busy.admits (.issue [0x00]) = true ∧ busy.admits (.issue [0x03]) = false := by decide

theorem witness_StepKeepsCoherence :
    busy.Coherent ∧ (after (step (busy.present (.issue (encode (.rspData #v[0, 0, 0, 0, 0, 0] 1)))))).isSome = true := by decide

theorem witness_DecoderSeesOnlyDecodesAndResets :
    (after (runOver [.issue (encode (.dec rawD01)), .read .pm25, .issue (encode .cmdWork), .reset] busy)).isSome = true := by
  decide

theorem witness_StepKeepsDecoderSidesEqual :
    (busy.present (.issue (encode .cmdWork))).request.reachesDecoder = false ∧
    (after (step (busy.present (.issue (encode .cmdWork))))).isSome = true ∧
    busy.decoderSide = (State.reset.latchResponse rawD01).decoderSide ∧ busy ≠ State.reset.latchResponse rawD01 ∧
    (busy.present (.issue (encode (.dec rawD01)))).request.reachesDecoder = true ∧
    (after (step (busy.present (.issue (encode (.dec rawD01)))))).isSome = true ∧
    (busy.present .reset).request.reachesDecoder = true ∧ (after (step (busy.present .reset))).isSome = true := by decide

theorem witness_StepKeepsTheHeldFrame :
    busy.txv = true ∧ (busy.present (.issue (encode (.dec rawD01)))).request.reachesEncoder = false ∧
    (after (step (busy.present (.issue (encode (.dec rawD01)))))).isSome = true ∧
    (busy.present (.issue (encode .cmdWork))).request.reachesEncoder = true ∧
    (after (step (busy.present (.issue (encode .cmdWork))))).isSome = true ∧
    (busy.present .reset).request.reachesEncoder = true ∧ (after (step (busy.present .reset))).isSome = true := by decide

theorem witness_LastEncodeDeterminesTheFrame :
    (after (runOver ([.issue (encode .cmdQuery)] ++ .issue (encode .cmdWork) :: [.issue (encode (.dec rawD01)), .read .txf])
      busy)).isSome = true ∧
    (∀ r ∈ [Request.issue (encode (.dec rawD01)), .read .txf], r.reachesEncoder = false) := by decide

theorem witness_AssemblerRefusesExactlyTheWrongLines :
    (listBytes [.copies 0 11]).length ≠ 12 ∧ (listBytes [.copies 0 13]).length ≠ 12 ∧ (listBytes [.copies 0 12]).length = 12 ∧
    (listBytes [.copies 0 9]).length ≠ 10 ∧ (listBytes [.copies 0 11]).length ≠ 10 ∧ (listBytes [.copies 0 10]).length = 10 ∧
    assemble (.cmdSetPeriod 0) = .instr (.cmdSetPeriod 0) ∧ assemble (.cmdSetPeriod 30) = .instr (.cmdSetPeriod 30) ∧
    assemble (.cmdSetPeriod (-1)) = .refused (.minutesRange (-1)) ∧
    assemble (.cmdSetPeriod 31) = .refused (.minutesRange 31) ∧
    assemble (.dec [.copies 0 9]) = .refused (.rawLength 9) ∧
    assemble (.cmdSetId [.copies 0 13]) = .refused (.payloadLength 13) := by decide

theorem witness_AssembledLinesRunToTheEnd : (assembleProgram [.cmdWork, .nop]).isSome = true := by decide

theorem witness_FrameSpaceAccesses :
    (memRead busy.txf 0 19).isSome = true ∧ memRead busy.txf 1 19 = none ∧ memRead busy.txf 15 2 = some [0xFF, 0xFF] ∧
    (memWrite busy.txf 18 [0x55]).isSome = true ∧ (memWrite busy.txf 19 [0x55]).isSome = false := by decide

theorem witness_HostViewOfTheRegisters :
    clampMinutes (-1) = (0, true) ∧ clampMinutes 45 = (30, true) ∧ clampMinutes 0 = (0, false) ∧
    clampMinutes 30 = (30, false) := by decide

/-- A DATA, a SETTING, a corrupt and a misframed reply, as the replies to CMD_QUERY and to a configuration command (R178, R179). -/
theorem witness_HostViewOfTheRegisters_replies :
    busy.queryReplyError = none ∧ busy.settingReplyError 0 0xD4 = some .protocolError ∧
    (after (exec (.rspSetting #v[2, 1, 1, 0, 0xFF, 0xFF] 2) busy)).map (fun t =>
      (t.queryReplyError, t.settingReplyError 0 0x02, t.settingReplyError 0 0x08)) =
        some (some .protocolError, none, some .protocolError) ∧
    (after (exec (.rspData #v[0, 0, 0, 0, 0, 0] 1) busy)).map (fun t => (t.queryReplyError, t.settingReplyError 0 0)) =
      some (some .checksumError, some .checksumError) ∧
    (after (exec (.dec #v[0, 0, 0, 0, 0, 0, 0, 0, 0, 0]) busy)).map (fun t => (t.queryReplyError, t.settingReplyError 5 0)) =
      some (some .protocolError, some .protocolError) := by decide

end Sys2Proof.Tests
end

section
/-! PROOFS. What a step does with the next pending interaction (20_memory.md R50, 42_decode.md R150). -/

namespace Sys2Proof.Machine

/-- A descriptor that spells one whole operation runs that operation. -/
theorem issue_of_decode {d : List Byte} {i : Instr} (h : decode d = .instr i []) (s : State) :
    issue d s = exec i s := by
  rw [issue, h]

/-- A step serves the oldest pending interaction, in the state with that interaction taken from the port. -/
theorem step_of_inbox_cons {s : State} {r : Request} {rest : List Request} (h : s.inbox = r :: rest) :
    step s = serve r { s with inbox := rest } := by
  have hreq : s.request = r := by rw [State.request, h, List.headD_cons]
  have hcons : s.consume = { s with inbox := rest } := by rw [State.consume, h, List.tail_cons]
  rw [step, hreq, hcons]

/-- A step from a state in which the host presents an interaction serves it. -/
@[simp] theorem step_present (s : State) (r : Request) : step (s.present r) = serve r s :=
  step_of_inbox_cons rfl

/-- The host's presenting a table word's operation has it issued. -/
theorem step_withFetchWord (s : State) (nbits w : Nat) :
    step (s.withFetchWord nbits w) = issue (descriptorOfWord nbits w) s :=
  step_present s (.issue (descriptorOfWord nbits w))

/-- A step that is presented with a descriptor of one whole operation runs that operation. -/
theorem step_of_inbox_issue {s : State} {d : List Byte} {rest : List Request} {i : Instr}
    (hs : s.inbox = .issue d :: rest) (hd : decode d = .instr i []) : step s = exec i { s with inbox := rest } :=
  (step_of_inbox_cons hs).trans (issue_of_decode hd _)

/-- With nothing pending the codec is presented with NOP, which writes nothing (R150). -/
theorem step_of_inbox_nil {s : State} (h : s.inbox = []) : step s = .next s := by
  have hreq : s.request = .issue [opNop] := by rw [State.request, h, List.headD_nil, idleRequest]
  have hcons : s.consume = s := by
    rw [State.consume, h, List.tail_nil]
    exact withInbox_self h
  calc step s
    _ = issue [opNop] s := by rw [step, hreq, hcons, serve]
    _ = .next s := issue_of_decode (decode_opNop []) s

/-- Settles O10: the next interaction is served alone, and a descriptor's service is `exec` of the instruction it spells. -/
theorem stepRunsTheDecodedInstruction : Obligations.StepRunsTheDecodedInstruction := by
  refine ⟨?presented, ?idle, ?tableWord⟩
  case presented => exact fun s d rest i hs hd => step_of_inbox_issue hs hd
  case idle => exact fun s hs => step_of_inbox_nil hs
  case tableWord => exact fun s nbits w i hd => (step_withFetchWord s nbits w).trans (issue_of_decode hd s)

end Sys2Proof.Machine
end

section
/-! PROOFS. MemRead and MemWrite on a frame space (00_scope.md R14, 20_memory.md R40). -/

namespace Sys2Proof.Machine

section FrameSpace

variable {k : Nat}

theorem memRead_eq_some_iff {space : Vector Byte k} {addr n : Nat} {bs : List Byte} :
    memRead space addr n = some bs ↔ addr + n ≤ k ∧ (space.toList.drop addr).take n = bs := by
  rw [memRead, Option.ite_none_right_eq_some, Option.some.injEq]

theorem memRead_isSome_iff (space : Vector Byte k) (addr n : Nat) :
    (memRead space addr n).isSome = true ↔ addr + n ≤ k := by
  rw [memRead, Option.isSome_ite]

theorem memWrite_isSome_iff (space : Vector Byte k) (addr : Nat) (v : List Byte) :
    (memWrite space addr v).isSome = true ↔ addr + v.length ≤ k := by
  rw [memWrite, Option.isSome_ite]

/-- A read inside the space has the length it asked for. -/
theorem memRead_length {space : Vector Byte k} {addr n : Nat} {bs : List Byte} (h : memRead space addr n = some bs) :
    bs.length = n := by
  obtain ⟨hin, rfl⟩ := memRead_eq_some_iff.mp h
  simp only [List.length_take, List.length_drop, Vector.length_toList]
  omega

/-- Byte `j` of a read is the space's byte `addr + j`. -/
theorem memRead_getElem? {space : Vector Byte k} {addr n : Nat} {bs : List Byte} (h : memRead space addr n = some bs)
    {j : Nat} (hj : j < n) : bs[j]? = space[addr + j]? := by
  obtain ⟨-, rfl⟩ := memRead_eq_some_iff.mp h
  rw [List.getElem?_take_of_lt hj, List.getElem?_drop, Vector.getElem?_toList]

/-- A read is determined by its bytes. -/
theorem memRead_of_getElem? {space : Vector Byte k} {addr : Nat} {v : List Byte} (hin : addr + v.length ≤ k)
    (hv : ∀ j < v.length, v[j]? = space[addr + j]?) : memRead space addr v.length = some v := by
  obtain ⟨bs, hbs⟩ := Option.isSome_iff_exists.mp ((memRead_isSome_iff space addr v.length).mpr hin)
  have hlen : bs.length = v.length := memRead_length hbs
  have heq : bs = v := List.ext_getElem? fun j => by
    by_cases hj : j < v.length
    · rw [memRead_getElem? hbs hj, hv j hj]
    · rw [List.getElem?_eq_none (by omega), List.getElem?_eq_none (by omega)]
  rw [hbs, heq]

/-- What each byte of a written space is: the byte written there, else the old one. -/
theorem memWrite_getElem? {space space' : Vector Byte k} {addr : Nat} {v : List Byte}
    (h : memWrite space addr v = some space') {j : Nat} (hj : j < k) :
    space'[j]? = if addr ≤ j ∧ j < addr + v.length then v[j - addr]? else space[j]? := by
  rw [memWrite, Option.ite_none_right_eq_some, Option.some.injEq] at h
  obtain ⟨-, rfl⟩ := h
  have hold : j < space.toList.length := by rwa [Vector.length_toList]
  have hnew : j < (writeList space.toList addr v).length := by rwa [writeList_length]
  calc (Vector.ofFn fun i : Fin k => (writeList space.toList addr v).getD i.val 0)[j]?
    _ = (writeList space.toList addr v)[j]? := by simp [hj, hnew]
    _ = _ := by rw [writeList_getElem? _ _ _ _ hold, Vector.getElem?_toList]

/-- What is written reads back (R40). -/
theorem memRead_memWrite {space space' : Vector Byte k} {addr : Nat} {v : List Byte}
    (h : memWrite space addr v = some space') : memRead space' addr v.length = some v := by
  have hin : addr + v.length ≤ k := (memWrite_isSome_iff space addr v).mp (Option.isSome_of_eq_some h)
  refine memRead_of_getElem? hin fun j hj => ?_
  rw [memWrite_getElem? h (by omega), if_pos (by omega), Nat.add_sub_cancel_left]

/-- A write leaves every byte outside its range (R40). -/
theorem memWrite_frame {space space' : Vector Byte k} {addr : Nat} {v : List Byte}
    (h : memWrite space addr v = some space') {j : Nat} (hj : j < k) (hout : j < addr ∨ addr + v.length ≤ j) :
    space'[j] = space[j] := by
  have hsame : space'[j]? = space[j]? := by rw [memWrite_getElem? h hj, if_neg (by omega)]
  rwa [Vector.getElem?_eq_getElem hj, Vector.getElem?_eq_getElem hj, Option.some.injEq] at hsame

end FrameSpace

/-- Settles O54: the domains, a read byte by byte, and a write by the byte each index holds after it. -/
theorem frameSpaceAccesses : Obligations.FrameSpaceAccesses := by
  refine ⟨?readDomain, ?readContent, ?writeDomain, ?writeEffect⟩
  case readDomain => exact fun k => memRead_isSome_iff
  case readContent => exact fun k space addr n bs h => ⟨memRead_length h, fun j hj => memRead_getElem? h hj⟩
  case writeDomain => exact fun k => memWrite_isSome_iff
  case writeEffect =>
    exact fun k space space' addr v h => ⟨memRead_memWrite h, fun j hj hout => memWrite_frame h hj hout⟩

end Sys2Proof.Machine
end

section
/-! PROOFS. An instruction does what the operation it expands to does; which bytes are an operation's; and everything one
served interaction can do, by its words (30_encoding.md R60 to R63, R75; 41_encode.md section 2). -/

namespace Sys2Proof

/-! ## Names and expansions -/

theorem Instr.expand_of_isEncode {i : Instr} (h : i.isEncode = true) : ∃ o p a b, i.expand = .enc o p a b := by
  cases i with
  | nop => cases h
  | dec raw => cases h
  | rspData p c => cases h
  | rspSetting p c => cases h
  | _ => exact ⟨_, _, _, _, rfl⟩

theorem Instr.expand_of_isDecode {i : Instr} (h : i.isDecode = true) : ∃ raw, i.expand = .dec raw := by
  cases i with
  | dec raw => exact ⟨_, rfl⟩
  | rspData p c => exact ⟨_, rfl⟩
  | rspSetting p c => exact ⟨_, rfl⟩
  | _ => cases h

theorem encode_of_expand_enc {i : Instr} {o : Byte} {p : Vector Byte 12} {a b : Byte} (h : i.expand = .enc o p a b) :
    encode i = encDescriptor o p a b := by
  simp only [encode, h]

/-- Naming admits only what the assembler does: a minutes byte over 30 keeps the name ENCB (log 5). -/
theorem nameEnc_wellFormed (o : Byte) (p : Vector Byte 12) (a b : Byte) : (nameEnc o p a b).wellFormed = true := by
  unfold nameEnc nameDefaultEnc
  repeat' split
  all_goals simp only [Instr.wellFormed, decide_eq_true_eq]
  next h => exact h.2

theorem nameDec_wellFormed (raw : Vector Byte 10) : (nameDec raw).wellFormed = true := by
  unfold nameDec
  repeat' split
  all_goals rfl

end Sys2Proof

namespace Sys2Proof.Machine

/-! ## What an instruction does, by its expansion -/

theorem exec_next_of_wellFormed {i : Instr} (h : i.wellFormed = true) (s : State) : ∃ t, exec i s = .next t :=
  Classical.byContradiction fun hstop => by
    obtain ⟨n, rfl, hn, -⟩ := exec_stops (not_exists.mp hstop)
    exact hn (of_decide_eq_true h)

/-- An instruction that expands to an ENC latches that ENC's frame whenever it completes. -/
theorem eq_latchFrame_of_exec {i : Instr} {o : Byte} {p : Vector Byte 12} {a b : Byte} {s t : State}
    (hx : i.expand = .enc o p a b) (h : exec i s = .next t) : t = s.latchFrame (commandFrame o p a b) := by
  rcases exec_cases h with ⟨rfl, -⟩ | ⟨-, o', p', a', b', hx', rfl⟩ | ⟨-, raw, hx', -⟩
  · cases hx
  · obtain ⟨rfl, rfl, rfl, rfl⟩ := Instr.enc.inj (hx.symm.trans hx')
    rfl
  · cases hx.symm.trans hx'

/-- An instruction that expands to a DEC latches that DEC's response whenever it completes. -/
theorem eq_latchResponse_of_exec {i : Instr} {raw : Vector Byte 10} {s t : State} (hx : i.expand = .dec raw)
    (h : exec i s = .next t) : t = s.latchResponse raw := by
  rcases exec_cases h with ⟨rfl, -⟩ | ⟨-, o, p, a, b, hx', -⟩ | ⟨-, raw', hx', rfl⟩
  · cases hx
  · cases hx.symm.trans hx'
  · obtain rfl := Instr.dec.inj (hx.symm.trans hx')
    rfl

theorem exec_dec (raw : Vector Byte 10) (s : State) : exec (.dec raw) s = .next (s.latchResponse raw) := rfl

/-! ## What presented words do -/

theorem issue_nop (s : State) : issue [opNop] s = .next s := issue_of_decode (decode_opNop []) s

theorem issue_encDescriptor (o : Byte) (p : Vector Byte 12) (a b : Byte) (s : State) :
    issue (encDescriptor o p a b) s = .next (s.latchFrame (commandFrame o p a b)) := by
  have hd : decode (encDescriptor o p a b) = .instr (nameEnc o p a b) [] := by
    simpa using decode_encDescriptor o p a b []
  obtain ⟨t, ht⟩ := exec_next_of_wellFormed (nameEnc_wellFormed o p a b) s
  rw [issue_of_decode hd, ht, eq_latchFrame_of_exec (nameEnc_expand o p a b) ht]

theorem issue_decDescriptor (raw : Vector Byte 10) (s : State) :
    issue (decDescriptor raw) s = .next (s.latchResponse raw) := by
  have hd : decode (decDescriptor raw) = .instr (nameDec raw) [] := by simpa using decode_decDescriptor raw []
  obtain ⟨t, ht⟩ := exec_next_of_wellFormed (nameDec_wellFormed raw) s
  rw [issue_of_decode hd, ht, eq_latchResponse_of_exec (nameDec_expand raw) ht]

theorem vec15_toList (v : Vector Byte 15) :
    v.toList = [v[0], v[1], v[2], v[3], v[4], v[5], v[6], v[7], v[8], v[9], v[10], v[11], v[12], v[13], v[14]] :=
  (congrArg Vector.toList (ofFn_self v)).symm

/-- Bytes of the length their operation byte tells are one of the three descriptors (R60 to R63, R75). -/
theorem spellsOperation_iff {d : List Byte} : spellsOperation d = true ↔
    d = [opNop] ∨ (∃ o p a b, d = encDescriptor o p a b) ∨ ∃ raw, d = decDescriptor raw := by
  constructor
  · intro h
    match d, h with
    | op :: bs, h =>
      have hlen : descriptorLength op = some (bs.length + 1) := by simpa [spellsOperation] using h
      rcases op_cases op with hm | rfl | rfl | rfl | rfl
      · rw [descriptorLength_reserved (.inr hm)] at hlen
        cases hlen
      · have hbs : 0 = bs.length := Nat.succ.inj (Option.some.inj (descriptorLength_opNop.symm.trans hlen))
        exact .inl (congrArg (opNop :: ·) (List.eq_nil_of_length_eq_zero hbs.symm))
      · have hbs : 15 = bs.length := Nat.succ.inj (Option.some.inj (descriptorLength_opEnc.symm.trans hlen))
        let v : Vector Byte 15 := ⟨bs.toArray, hbs.symm⟩
        exact .inr (.inl ⟨v[0], #v[v[1], v[2], v[3], v[4], v[5], v[6], v[7], v[8], v[9], v[10], v[11], v[12]],
          v[13], v[14], congrArg (opEnc :: ·) (vec15_toList v)⟩)
      · have hbs : 10 = bs.length := Nat.succ.inj (Option.some.inj (descriptorLength_opDec.symm.trans hlen))
        let raw : Vector Byte 10 := ⟨bs.toArray, hbs.symm⟩
        exact .inr (.inr ⟨raw, congrArg (opDec :: ·) (vec10_toList raw)⟩)
      · rw [descriptorLength_reserved (by decide)] at hlen
        cases hlen
  · rintro (rfl | ⟨o, p, a, b, rfl⟩ | ⟨raw, rfl⟩) <;> rfl

/-! ## What a served interaction does -/

theorem serve_read_of_holdsValue {s : State} {r : ResultReg} (h : s.holdsValue r = true) :
    serve (.read r) s = .next (s.deliver (s.valueOf r)) := if_pos h

theorem serve_read_of_not_holdsValue {s : State} {r : ResultReg} (h : s.holdsValue r = false) :
    serve (.read r) s = .fault (.unspecifiedRead r) := by
  rw [serve, readResult, h, if_neg Bool.false_ne_true]

/-- The interactions that complete, by their words, and the state each one leaves: `serve_eq_next_iff` ties it to `serve`. -/
inductive Serves : Request → State → State → Prop
  | nop (s : State) : Serves (.issue [opNop]) s s
  | enc (o : Byte) (p : Vector Byte 12) (a b : Byte) (s : State) :
    Serves (.issue (encDescriptor o p a b)) s (s.latchFrame (commandFrame o p a b))
  | dec (raw : Vector Byte 10) (s : State) : Serves (.issue (decDescriptor raw)) s (s.latchResponse raw)
  | reset (s : State) : Serves .reset s s.resetRegisters
  | read (r : ResultReg) (s : State) (h : s.holdsValue r = true) : Serves (.read r) s (s.deliver (s.valueOf r))

theorem Serves.serve_eq {r : Request} {s t : State} (h : Serves r s t) : serve r s = .next t := by
  cases h with
  | nop => exact issue_nop s
  | enc o p a b => exact issue_encDescriptor o p a b s
  | dec raw => exact issue_decDescriptor raw s
  | reset => rfl
  | read r _ hv => exact serve_read_of_holdsValue hv

theorem Serves.of_serve {r : Request} {s t : State} (h : serve r s = .next t) : Serves r s t := by
  rcases serve_next h with ⟨d, i, rfl, hd, he⟩ | ⟨rfl, rfl⟩ | ⟨x, rfl, hv, rfl⟩
  · rcases decode_cases hd with ⟨rfl, rfl⟩ | ⟨o, p, a, b, rfl, rfl⟩ | ⟨raw, rfl, rfl⟩
    · obtain rfl := Host.Outcome.next.inj he
      exact .nop s
    · rw [eq_latchFrame_of_exec (nameEnc_expand o p a b) he, List.append_nil]
      exact .enc o p a b s
    · rw [eq_latchResponse_of_exec (nameDec_expand raw) he, List.append_nil]
      exact .dec raw s
  · exact .reset s
  · exact .read x s hv

theorem serve_eq_next_iff {r : Request} {s t : State} : serve r s = .next t ↔ Serves r s t :=
  ⟨.of_serve, Serves.serve_eq⟩

/-- A step answers a next state exactly where its interaction, taken from the port, is served. -/
theorem step_eq_next_iff {s t : State} : step s = .next t ↔ Serves s.request s.consume t := serve_eq_next_iff

/-! ## What reaches a unit -/

theorem encoderSide_of_serve {r : Request} {s t : State} (h : serve r s = .next t) (hr : r.reachesEncoder = false) :
    t.encoderSide = s.encoderSide :=
  (serve_sides h).1.resolve_right (by simp [hr])

theorem decoderSide_of_serve {r : Request} {s t : State} (h : serve r s = .next t) (hr : r.reachesDecoder = false) :
    t.decoderSide = s.decoderSide :=
  (serve_sides h).2.resolve_right (by simp [hr])

theorem encoderSide_of_step {s t : State} (h : step s = .next t) (hr : s.request.reachesEncoder = false) :
    t.encoderSide = s.encoderSide :=
  (encoderSide_of_serve h hr).trans s.consume_encoderSide

theorem decoderSide_of_step {s t : State} (h : step s = .next t) (hr : s.request.reachesDecoder = false) :
    t.decoderSide = s.decoderSide :=
  (decoderSide_of_serve h hr).trans s.consume_decoderSide

/-- A DEC or a reset completes in every state and leaves the same decoder registers in each (R36, R140, R190). -/
theorem serve_reachesDecoder {r : Request} {s t : State} (h : serve r s = .next t) (hr : r.reachesDecoder = true)
    (s' : State) : ∃ t', serve r s' = .next t' ∧ t'.decoderSide = t.decoderSide := by
  cases Serves.of_serve h with
  | nop => cases hr
  | enc => cases hr
  | dec raw => exact ⟨_, issue_decDescriptor raw s', rfl⟩
  | reset => exact ⟨_, rfl, rfl⟩
  | read => cases hr

/-- What reaches the encoder is an ENC, whose frame it leaves held, or a reset, after which no frame is held (R36, R190). -/
theorem serve_reachesEncoder {r : Request} {s t : State} (h : serve r s = .next t) (hr : r.reachesEncoder = true) :
    (∃ o p a b, r = .issue (encDescriptor o p a b) ∧ t.txv = true ∧ t.txf = commandFrame o p a b) ∨
    (r = .reset ∧ t.txv = false) := by
  cases Serves.of_serve h with
  | nop => cases hr
  | enc o p a b => exact .inl ⟨o, p, a, b, rfl, rfl, rfl⟩
  | dec => cases hr
  | reset => exact .inr ⟨rfl, rfl⟩
  | read => cases hr

theorem State.encoderSide_eq_iff {s t : State} : t.encoderSide = s.encoderSide ↔ t.txf = s.txf ∧ t.txv = s.txv := by
  simp [State.encoderSide]

end Sys2Proof.Machine
end

section
/-! PROOFS. Every step keeps the relations 10_state.md gives between the registers. -/

namespace Sys2Proof.Machine

/-- Settles O48: RXST is IDLE, RXTAG is NONE and TXV is 0, so each relation is about codes alone. -/
theorem resetIsCoherent : Obligations.ResetIsCoherent := by
  unfold Obligations.ResetIsCoherent
  decide

/-- A command frame has its constants and the checksum of its body (R64, R65, R101). -/
theorem latchFrame_frameHeld (o : Byte) (p : Vector Byte 12) (a b : Byte) (s : State) :
    (s.latchFrame (commandFrame o p a b)).FrameHeld := by
  intro _
  refine ⟨rfl, rfl, rfl, ?_⟩
  rw [State.latchFrame_txf, commandFrame_body]
  rfl

/-- ENC keeps coherence: its frame is well formed, and the decoder's registers stay. -/
theorem latchFrame_coherent {s : State} (h : s.Coherent) (o : Byte) (p : Vector Byte 12) (a b : Byte) :
    (s.latchFrame (commandFrame o p a b)).Coherent := by
  obtain ⟨hcodes, htag, hrdv, -, hfields, hverdict⟩ := h
  exact ⟨hcodes, htag, hrdv, latchFrame_frameHeld o p a b s, hfields, hverdict⟩

theorem readingValid_iff (st : Status) (tag : Tag) :
    readingValid st tag = true ↔ st = Config.rxstOk ∧ tag = Config.rxtagData := by
  simp [readingValid]

section Response

variable (s : State) (raw : Vector Byte 10)

/-- Each of the five verdicts is a pair of legal codes, tagged exactly when it is OK (R24, R25). -/
theorem latchResponse_codesLegal_and_tagFollowsStatus :
    (s.latchResponse raw).CodesLegal ∧ (s.latchResponse raw).TagFollowsStatus := by
  unfold State.CodesLegal State.TagFollowsStatus
  rw [State.latchResponse_rxst, State.latchResponse_rxtag]
  rcases verdict_cases raw with ⟨-, hv⟩ | ⟨-, -, hv⟩ | ⟨-, -, -, hv⟩ | ⟨-, -, -, hv⟩ | ⟨-, -, -, -, hv⟩ <;>
    rw [hv] <;> decide

theorem latchResponse_readingFlagRight : (s.latchResponse raw).ReadingFlagRight :=
  readingValid_iff (verdict raw).1 (verdict raw).2

/-- Both the captured fields and the computed checksum are of the operand's payload bytes (R92, R136). -/
theorem latchResponse_fieldsHeld : (s.latchResponse raw).FieldsHeld := by
  intro _
  refine ⟨rfl, rfl, rfl, ?_⟩
  rw [State.latchResponse_rxp, rawPayload_toList]
  rfl

/-- The captured bytes show the check that decided the verdict (R132, R133). -/
theorem latchResponse_verdictHeld : (s.latchResponse raw).VerdictHeld := by
  unfold State.VerdictHeld
  have hsum := checksumMatches_iff raw
  simp only [State.latchResponse_rxst, State.latchResponse_rxtag, State.latchResponse_rxcst,
    State.latchResponse_rxcsc, State.latchResponse_rxtb]
  rcases verdict_cases raw with ⟨-, hv⟩ | ⟨-, hc, hv⟩ | ⟨-, hc, ht, hv⟩ | ⟨-, hc, ht, hv⟩ | ⟨-, hc, hd, hs, hv⟩
  · simp [hv]
  · have hmismatch : raw[8] ≠ responseChecksum raw := fun he => absurd (hsum.mpr he) (by simp [hc])
    simp [hv, hmismatch]
  · simp [hv, hsum.mp hc, ht]
  · simp [hv, hsum.mp hc, ht]
  · simpa [hv, hsum.mp hc] using And.intro hd hs

end Response

/-- DEC makes the decoder's registers coherent from any state, and leaves the held frame. -/
theorem latchResponse_coherent {s : State} (h : s.Coherent) (raw : Vector Byte 10) :
    (s.latchResponse raw).Coherent := by
  obtain ⟨-, -, -, hframe, -, -⟩ := h
  obtain ⟨hcodes, htag⟩ := latchResponse_codesLegal_and_tagFollowsStatus s raw
  exact ⟨hcodes, htag, latchResponse_readingFlagRight s raw, hframe, latchResponse_fieldsHeld s raw,
    latchResponse_verdictHeld s raw⟩

theorem serve_coherent {r : Request} {s t : State} (h : s.Coherent) (hs : serve r s = .next t) : t.Coherent := by
  cases Serves.of_serve hs with
  | nop => exact h
  | enc o p a b => exact latchFrame_coherent h o p a b
  | dec raw => exact latchResponse_coherent h raw
  | reset => exact resetIsCoherent
  | read => exact h

/-- Settles O49: taking an interaction from the port changes no register, and serving it keeps coherence. -/
theorem stepKeepsCoherence : Obligations.StepKeepsCoherence := by
  intro s t h hstep
  have hport : s.consume.Coherent := h
  exact serve_coherent hport hstep

end Sys2Proof.Machine
end

section
/-! PROOFS. The two units share no state: what a step, and a run, does to each (10_state.md R36, R37; 70_reset_and_hazards.md
R200 to R202). -/

namespace Sys2Proof.Machine

/-! ## One step -/

/-- Settles O57: what does not reach the decoder leaves it, and a DEC or a reset reads none of its registers. -/
theorem stepKeepsDecoderSidesEqual : Obligations.StepKeepsDecoderSidesEqual := by
  refine ⟨?others, ?reaching⟩
  case others => exact fun s t hr h => decoderSide_of_step h hr
  case reaching =>
    intro s s' t _ hreq hr h
    obtain ⟨t', ht', hside⟩ := serve_reachesDecoder h hr s'.consume
    rw [← hreq] at ht'
    exact ⟨t', ht', hside⟩

/-- Settles O58: what does not reach the encoder leaves it, and what does is an ENC or a reset. -/
theorem stepKeepsTheHeldFrame : Obligations.StepKeepsTheHeldFrame := by
  refine ⟨?kept, ?replaced⟩
  case kept =>
    rintro frame s t ⟨htxv, htxf⟩ hr h
    obtain ⟨hf, hv⟩ := State.encoderSide_eq_iff.mp (encoderSide_of_step h hr)
    exact ⟨hv.trans htxv, hf.trans htxf⟩
  case replaced =>
    intro s t hr h
    rcases serve_reachesEncoder h hr with ⟨o, p, a, b, hreq, hv, hf⟩ | hreset
    · exact .inl ⟨.enc o p a b, o, p, a, b, hreq, rfl, rfl, hv, hf⟩
    · exact .inr hreset

/-- Settles O39: an ENC is the latching of a frame and a DEC that of a response. -/
theorem unitsShareNoState : Obligations.UnitsShareNoState := by
  refine ⟨fun i s t hi h => ?encode, fun i s t hi h => ?decode⟩
  case encode =>
    obtain ⟨o, p, a, b, hx⟩ := Instr.expand_of_isEncode hi
    obtain rfl := eq_latchFrame_of_exec hx h
    exact ⟨rfl, rfl⟩
  case decode =>
    obtain ⟨raw, hx⟩ := Instr.expand_of_isDecode hi
    obtain rfl := eq_latchResponse_of_exec hx h
    exact ⟨rfl, rfl⟩

/-! ## Runs -/

/-- The interactions that reach the decoder see only the decoder side, so they leave the same alone as in the whole run. -/
theorem runOver_filter_reachesDecoder {rs : List Request} {s s' t : State} (hside : s'.decoderSide = s.decoderSide)
    (h : runOver rs s = .next t) :
    ∃ t', runOver (rs.filter Request.reachesDecoder) s' = .next t' ∧ t'.decoderSide = t.decoderSide := by
  induction rs generalizing s s' with
  | nil =>
    obtain rfl := Host.Outcome.next.inj h
    exact ⟨_, runOver_nil s', hside⟩
  | cons r rs ih =>
    obtain ⟨u, hu, hrun⟩ := runOver_cons_next.mp h
    cases hr : r.reachesDecoder with
    | true =>
      rw [List.filter_cons_of_pos hr]
      obtain ⟨u', hu', hside'⟩ := serve_reachesDecoder hu hr (s'.withInbox (rs.filter Request.reachesDecoder))
      obtain ⟨t', ht', hlast⟩ := ih hside' hrun
      exact ⟨t', runOver_cons_next.mpr ⟨u', hu', ht'⟩, hlast⟩
    | false =>
      rw [List.filter_cons_of_neg (by simp [hr])]
      exact ih (hside.trans (decoderSide_of_serve hu hr).symm) hrun

/-- Settles O50, by induction on the interactions, over two states with equal decoder sides. -/
theorem decoderSeesOnlyDecodesAndResets : Obligations.DecoderSeesOnlyDecodesAndResets :=
  fun _ _ _ h => runOver_filter_reachesDecoder rfl h

/-- A completed run runs its later interactions from some state. -/
theorem runOver_append_next {rs₁ rs₂ : List Request} {s t : State} (h : runOver (rs₁ ++ rs₂) s = .next t) :
    ∃ u, runOver rs₂ u = .next t := by
  induction rs₁ generalizing s with
  | nil => exact ⟨s, h⟩
  | cons r rs₁ ih =>
    obtain ⟨u, -, hrun⟩ := runOver_cons_next.mp h
    exact ih hrun

theorem runOver_encoderSide {rs : List Request} {s t : State} (hrs : ∀ r ∈ rs, r.reachesEncoder = false)
    (h : runOver rs s = .next t) : t.encoderSide = s.encoderSide := by
  induction rs generalizing s with
  | nil =>
    obtain rfl := Host.Outcome.next.inj h
    rfl
  | cons r rs ih =>
    obtain ⟨hr, hrs⟩ := List.forall_mem_cons.mp hrs
    obtain ⟨u, hu, hrun⟩ := runOver_cons_next.mp h
    exact (ih hrs hrun).trans ((encoderSide_of_serve hu hr).trans (s.withInbox_encoderSide rs))

/-- Settles O51: the run reaches the ENC in some state, the ENC latches its frame there, and the rest keeps it. -/
theorem lastEncodeDeterminesTheFrame : Obligations.LastEncodeDeterminesTheFrame := by
  intro rs₁ rs₂ i s t hi hrs h
  obtain ⟨o, p, a, b, hx⟩ := Instr.expand_of_isEncode hi
  obtain ⟨u, hu⟩ := runOver_append_next h
  obtain ⟨v, hv, hrun⟩ := runOver_cons_next.mp hu
  rw [encode_of_expand_enc hx, serve, issue_encDescriptor] at hv
  obtain rfl := Host.Outcome.next.inj hv
  obtain ⟨hf, hvalid⟩ := State.encoderSide_eq_iff.mp (runOver_encoderSide hrs hrun)
  exact ⟨o, p, a, b, hx, hvalid, hf⟩

end Sys2Proof.Machine
end

section
/-! PROOFS. What a DEC leaves in the decoder registers (42_decode.md R135 to R138). -/

namespace Sys2Proof.Machine

theorem rawPayload_getElem (raw : Vector Byte 10) {k : Nat} (h : k < 6) : (rawPayload raw)[k] = raw[2 + k] := by
  match k, h with
  | 0, _ | 1, _ | 2, _ | 3, _ | 4, _ | 5, _ => rfl

/-- Settles O32: the registers of `latchResponse`, which do not depend on the verdict. -/
theorem payloadCapture : Obligations.PayloadCapture :=
  fun raw s => ⟨_, exec_dec raw s, fun _ h => rawPayload_getElem raw h, rfl, rfl, rfl⟩

/-- The composed field is an unsigned number, low byte first (R42). -/
theorem composeLE_toNat (lo hi : Byte) : (composeLE lo hi).toNat = hi.toNat * 256 + lo.toNat := by
  rw [composeLE_eq_append, BitVec.toNat_append, ← Nat.shiftLeft_add_eq_or_of_lt lo.isLt, Nat.shiftLeft_eq]

/-- Settles O33: each field is the composition of two payload bytes. -/
theorem readingComposition : Obligations.ReadingComposition := by
  refine ⟨?fields, ?corners⟩
  case fields =>
    exact fun raw s => ⟨_, exec_dec raw s, composeLE_toNat raw[2] raw[3], composeLE_toNat raw[4] raw[5],
      composeLE_toNat raw[6] raw[7]⟩
  case corners => decide

theorem rdv_iff_of_exec {i : Instr} {s t : State} (hi : i.isDecode = true) (h : exec i s = .next t) :
    t.rdv = true ↔ t.rxst = Config.rxstOk ∧ t.rxtag = Config.rxtagData := by
  obtain ⟨raw, hx⟩ := Instr.expand_of_isDecode hi
  obtain rfl := eq_latchResponse_of_exec hx h
  exact latchResponse_readingFlagRight s raw

/-- Settles O34: every DEC computes RDV from the status and tag it writes. -/
theorem readingValidity : Obligations.ReadingValidity := by
  refine ⟨fun i s t hi h => rdv_iff_of_exec hi h, ?setting, fun s => rfl, rfl⟩
  case setting =>
    intro i s t hi h _ htag
    rw [Bool.eq_false_iff, ne_eq, rdv_iff_of_exec hi h, htag]
    exact fun hread => absurd hread.2 (by decide)

end Sys2Proof.Machine
end

section
/-! PROOFS. Host reads, reset, and which interactions complete (10_state.md R38, R39; 60_exceptions.md R164; R190). -/

namespace Sys2Proof.Machine

/-! ## Which registers hold a value -/

theorem holdsValue_txf {r : ResultReg} (hr : r = .txf ∨ ∃ k, r = .txfByte k) (s : State) : s.holdsValue r = s.txv := by
  rcases hr with rfl | ⟨k, rfl⟩ <;> rfl

theorem holdsValue_decoderData {r : ResultReg}
    (hr : r ∈ [ResultReg.rxp, .rxtb, .rxcsc, .rxcst, .pm25, .pm10, .devid] ∨ ∃ k, r = .rxpByte k) (s : State) :
    s.holdsValue r = (s.rxst != Config.rxstIdle) := by
  rcases hr with hr | ⟨k, rfl⟩
  · simp only [List.mem_cons, List.not_mem_nil, or_false] at hr
    rcases hr with rfl | rfl | rfl | rfl | rfl | rfl | rfl <;> rfl
  · rfl

/-- No data register holds a value after a reset (R38, R39). -/
theorem holdsValue_resetRegisters (s : State) {r : ResultReg}
    (hr : r ∈ [ResultReg.txf, .rxp, .rxtb, .rxcsc, .rxcst, .pm25, .pm10, .devid]) :
    s.resetRegisters.holdsValue r = false := by
  rcases List.mem_cons.mp hr with htxf | hdata
  · exact holdsValue_txf (.inl htxf) s.resetRegisters
  · exact holdsValue_decoderData (.inl hdata) s.resetRegisters

theorem holdsValue_consume (s : State) (r : ResultReg) : s.consume.holdsValue r = s.holdsValue r := by
  cases r <;> rfl

/-! ## Reads -/

theorem step_read_of_holdsValue {s : State} {r : ResultReg} (h : s.holdsValue r = true) :
    step (s.present (.read r)) = .next (s.deliver (s.valueOf r)) :=
  (step_present s (.read r)).trans (serve_read_of_holdsValue h)

theorem step_read_of_not_holdsValue {s : State} {r : ResultReg} (h : s.holdsValue r = false) :
    step (s.present (.read r)) = .fault (.unspecifiedRead r) :=
  (step_present s (.read r)).trans (serve_read_of_not_holdsValue h)

/-- Settles O44: the two kinds of data register by what makes them hold a value, and R36's frame of a step. -/
theorem readsBeforeTheFirstWriteFault : Obligations.ReadsBeforeTheFirstWriteFault := by
  refine ⟨?txf, ?decoderData, ?encoderKept, ?decoderKept⟩
  case txf =>
    intro s r hr
    have hv := holdsValue_txf hr s
    exact ⟨fun h => step_read_of_not_holdsValue (hv.trans h), fun h => step_read_of_holdsValue (hv.trans h)⟩
  case decoderData =>
    intro s r hr
    have hv := holdsValue_decoderData hr s
    exact ⟨fun h => step_read_of_not_holdsValue (hv.trans (bne_eq_false_iff_eq.mpr h)),
      fun h => step_read_of_holdsValue (hv.trans (bne_iff_ne.mpr h))⟩
  case encoderKept => exact fun s t h hr => encoderSide_of_step h hr
  case decoderKept => exact fun s t h hr => decoderSide_of_step h hr

/-- Where the model faults, the hardware may return anything of the register's width. -/
theorem read_faults_and_hardwareReturns {s : State} {r : ResultReg} (h : s.holdsValue r = false) :
    step (s.present (.read r)) = .fault (.unspecifiedRead r) ∧
      ∀ v, r.fits v = true → s.hardwareReturns r v = true :=
  ⟨step_read_of_not_holdsValue h, fun v hv => (hardwareReturns_of_not_holdsValue h v).trans hv⟩

/-- A step that serves a reset leaves the reset registers. -/
theorem eq_resetRegisters_of_step {s t : State} (hr : s.request = .reset) (h : step s = .next t) :
    t = s.consume.resetRegisters := by
  rw [step, hr] at h
  exact (Host.Outcome.next.inj h).symm

/-- Settles O59: whether the register holds a value decides both what the model does and what the hardware may return. -/
theorem modelReadsAgreeWithTheHardware : Obligations.ModelReadsAgreeWithTheHardware := by
  refine ⟨?completed, ?txf, ?decoderData, ?afterReset, ?width⟩
  case completed =>
    intro s t r h v
    rw [step_present] at h
    cases Serves.of_serve h with
    | read _ _ hv =>
      rw [hardwareReturns_of_holdsValue hv, State.deliver_hostData, Option.some.injEq]
      exact eq_comm
  case txf => exact fun s r hr h => read_faults_and_hardwareReturns ((holdsValue_txf hr s).trans h)
  case decoderData =>
    exact fun s r hr h =>
      read_faults_and_hardwareReturns ((holdsValue_decoderData hr s).trans (bne_eq_false_iff_eq.mpr h))
  case afterReset =>
    intro s t hreq h r hr v hv
    obtain rfl := eq_resetRegisters_of_step hreq h
    exact (hardwareReturns_of_not_holdsValue (holdsValue_resetRegisters s.consume hr) v).trans hv
  case width =>
    intro s r v h
    rw [State.hardwareReturns, Bool.and_eq_true] at h
    exact h.1

/-! ## Reset -/

/-- Settles O43: every reset leaves `resetRegisters`, whose registers are those of `State.reset`. -/
theorem resetValues : Obligations.ResetValues := by
  refine ⟨?values, ?sameRegisters, ?twice, rfl, rfl, rfl, rfl⟩
  case values =>
    intro s rest hs
    exact ⟨_, step_of_inbox_cons hs, rfl, rfl, rfl, rfl, rfl, rfl,
      fun r hr => step_read_of_not_holdsValue (holdsValue_resetRegisters { s with inbox := rest } hr)⟩
  case sameRegisters =>
    intro s s' t t' hr hr' h h'
    obtain rfl := eq_resetRegisters_of_step hr h
    obtain rfl := eq_resetRegisters_of_step hr' h'
    exact ⟨rfl, rfl⟩
  case twice =>
    intro s t u ht hu
    obtain rfl := eq_resetRegisters_of_step rfl ht
    exact eq_resetRegisters_of_step rfl hu

/-! ## Completion -/

/-- An interaction is served to a next state exactly when the state admits it. -/
theorem admits_iff_serve_next (s : State) (r : Request) : s.admits r = true ↔ ∃ t, serve r s = .next t := by
  constructor
  · intro h
    cases r with
    | issue d =>
      rcases spellsOperation_iff.mp h with rfl | ⟨o, p, a, b, rfl⟩ | ⟨raw, rfl⟩
      · exact ⟨_, issue_nop s⟩
      · exact ⟨_, issue_encDescriptor o p a b s⟩
      · exact ⟨_, issue_decDescriptor raw s⟩
    | reset => exact ⟨_, rfl⟩
    | read r => exact ⟨_, serve_read_of_holdsValue h⟩
    | concurrent => cases h
    | resetDuring => cases h
  · rintro ⟨t, h⟩
    cases Serves.of_serve h with
    | nop => exact spellsOperation_iff.mpr (.inl rfl)
    | enc o p a b => exact spellsOperation_iff.mpr (.inr (.inl ⟨o, p, a, b, rfl⟩))
    | dec raw => exact spellsOperation_iff.mpr (.inr (.inr ⟨raw, rfl⟩))
    | reset => rfl
    | read _ _ hv => exact hv

theorem admits_consume (s : State) (r : Request) : s.consume.admits r = s.admits r := by
  cases r with
  | read x => exact holdsValue_consume s x
  | _ => rfl

/-- Settles O47: the port's interaction is admitted in a state exactly when it is admitted once taken from the port. -/
theorem admittedInteractionsComplete : Obligations.AdmittedInteractionsComplete := by
  intro s
  rw [← admits_consume]
  exact admits_iff_serve_next s.consume s.request

end Sys2Proof.Machine
end

section
/-! PROOFS. What a completed host read leaves, and what a step does with the interactions that are no operation
(20_memory.md R47, R55; 60_exceptions.md R166; R190). -/

namespace Sys2Proof.Machine

/-! ## A delivered value changes no register -/

@[simp] theorem State.deliver_holdsValue (s : State) (v : ReadValue) (r : ResultReg) :
    (s.deliver v).holdsValue r = s.holdsValue r := by
  cases r <;> rfl

@[simp] theorem State.deliver_valueOf (s : State) (v : ReadValue) (r : ResultReg) :
    (s.deliver v).valueOf r = s.valueOf r := by
  cases r <;> rfl

@[simp] theorem State.deliver_deliver (s : State) (v w : ReadValue) : (s.deliver v).deliver w = s.deliver w := rfl

/-! ## Completed reads -/

theorem holdsValue_flag {r : ResultReg} (hr : r ∈ [ResultReg.txv, .rxst, .rxtag, .rdv]) (s : State) :
    s.holdsValue r = true := by
  simp only [List.mem_cons, List.not_mem_nil, or_false] at hr
  rcases hr with rfl | rfl | rfl | rfl <;> rfl

theorem step_read_eq_next_iff {s t : State} {r : ResultReg} :
    step (s.present (.read r)) = .next t ↔ s.holdsValue r = true ∧ t = s.deliver (s.valueOf r) := by
  constructor
  · intro h
    rw [step_present] at h
    cases Serves.of_serve h with
    | read _ _ hv => exact ⟨hv, rfl⟩
  · rintro ⟨hv, rfl⟩
    exact step_read_of_holdsValue hv

/-- Settles O45: a completed read only delivers the register's value, which changes neither what the registers hold nor
whether they hold it, so a second read delivers the same. -/
theorem readsHaveNoSideEffect : Obligations.ReadsHaveNoSideEffect := by
  refine ⟨?noSideEffect, ?repeatable, ?flags⟩
  case noSideEffect =>
    intro s t r h
    obtain ⟨-, rfl⟩ := step_read_eq_next_iff.mp h
    exact ⟨s.deliver_encoderSide _, s.deliver_decoderSide _, s.deliver_inbox _, s.deliver_hostData _⟩
  case repeatable =>
    intro s t r h
    obtain ⟨hv, rfl⟩ := step_read_eq_next_iff.mp h
    refine step_read_eq_next_iff.mpr ⟨?_, ?_⟩
    · rwa [State.deliver_holdsValue]
    · rw [State.deliver_valueOf, State.deliver_deliver]
  case flags => exact fun s r hr => step_read_of_holdsValue (holdsValue_flag hr s)

/-! ## Reset and the refused interactions -/

/-- Settles O11: the step serves the interaction at the head of the port, a reset by `resetRegisters`. -/
theorem stepServesTheOtherInteractions : Obligations.StepServesTheOtherInteractions := by
  refine ⟨?reset, ?concurrent, ?resetDuring⟩
  case reset => exact fun s rest hs => step_of_inbox_cons hs
  case concurrent => exact fun s d₁ d₂ rest hs => step_of_inbox_cons hs
  case resetDuring => exact fun s d rest hs => step_of_inbox_cons hs

end Sys2Proof.Machine
end

section
/-! PROOFS. Decoding and encoding undo each other, up to the name of an operation (30_encoding.md R60 to R63, R75, R79). -/

namespace Sys2Proof

/-! ## What an instruction's words and canonical name are, by its expansion -/

theorem encode_of_expand_dec {i : Instr} {raw : Vector Byte 10} (h : i.expand = .dec raw) :
    encode i = decDescriptor raw := by
  simp only [encode, h]

theorem canonical_of_expand_enc {i : Instr} {o : Byte} {p : Vector Byte 12} {a b : Byte} (h : i.expand = .enc o p a b) :
    i.canonical = nameEnc o p a b := by
  simp only [Instr.canonical, h]

theorem canonical_of_expand_dec {i : Instr} {raw : Vector Byte 10} (h : i.expand = .dec raw) :
    i.canonical = nameDec raw := by
  simp only [Instr.canonical, h]

/-- The canonical name is a name of the same operation with the same operands. -/
@[simp] theorem canonical_expand (i : Instr) : i.canonical.expand = i.expand := by
  rcases expand_cases i with rfl | ⟨o, p, a, b, hx⟩ | ⟨raw, hx⟩
  · rfl
  · rw [canonical_of_expand_enc hx, nameEnc_expand, hx]
  · rw [canonical_of_expand_dec hx, nameDec_expand, hx]

theorem canonical_wellFormed (i : Instr) : i.canonical.wellFormed = true := by
  rcases expand_cases i with rfl | ⟨o, p, a, b, hx⟩ | ⟨raw, hx⟩
  · rfl
  · rw [canonical_of_expand_enc hx, nameEnc_wellFormed]
  · rw [canonical_of_expand_dec hx, nameDec_wellFormed]

/-! ## Both directions -/

/-- An instruction's words decode to its canonical name, whatever bytes follow them. -/
theorem decode_encode_append (i : Instr) (rest : List Byte) :
    decode (encode i ++ rest) = .instr i.canonical rest := by
  rcases expand_cases i with rfl | ⟨o, p, a, b, hx⟩ | ⟨raw, hx⟩
  · exact decode_opNop rest
  · rw [encode_of_expand_enc hx, canonical_of_expand_enc hx, decode_encDescriptor]
  · rw [encode_of_expand_dec hx, canonical_of_expand_dec hx, decode_decDescriptor]

theorem decode_encode (i : Instr) : decode (encode i) = .instr i.canonical [] := by
  simpa using decode_encode_append i []

/-- Settles O5: by the three operations an instruction can expand to. -/
theorem decodeOfEncodeIsTheCanonicalName : Obligations.DecodeOfEncodeIsTheCanonicalName :=
  fun i rest _ => ⟨decode_encode_append i rest, canonical_expand i⟩

/-- Settles O7: what the decoder accepts is one of the three descriptors, and it answers the name of that descriptor's
operation, which expands to the operation again. -/
theorem encodeOfDecodeIsTheBytes : Obligations.EncodeOfDecodeIsTheBytes := by
  intro bs rest i h
  rcases decode_cases h with ⟨rfl, rfl⟩ | ⟨o, p, a, b, rfl, rfl⟩ | ⟨raw, rfl, rfl⟩
  · exact ⟨rfl, rfl, rfl⟩
  · have hx := nameEnc_expand o p a b
    exact ⟨nameEnc_wellFormed o p a b, by rw [encode_of_expand_enc hx], canonical_of_expand_enc hx⟩
  · have hx := nameDec_expand raw
    exact ⟨nameDec_wellFormed raw, by rw [encode_of_expand_dec hx], canonical_of_expand_dec hx⟩

/-- Settles O1: the layouts are the two descriptors' own, and a decoded name expands to the operation it was read from. -/
theorem descriptorLayouts : Obligations.DescriptorLayouts := by
  refine ⟨rfl, decode_opNop, fun o p a b => rfl, ?encDescriptor, fun raw => rfl, ?decDescriptor⟩
  case encDescriptor =>
    intro o p0 p1 p2 p3 p4 p5 p6 p7 p8 p9 p10 p11 a b
    let p : Vector Byte 12 := #v[p0, p1, p2, p3, p4, p5, p6, p7, p8, p9, p10, p11]
    exact ⟨nameEnc o p a b, decode_encDescriptor o p a b [], nameEnc_expand o p a b⟩
  case decDescriptor =>
    intro r0 r1 r2 r3 r4 r5 r6 r7 r8 r9
    let raw : Vector Byte 10 := #v[r0, r1, r2, r3, r4, r5, r6, r7, r8, r9]
    exact ⟨nameDec raw, decode_decDescriptor raw [], nameDec_expand raw⟩

/-- Settles O2: each word is short and closed, so the decoder runs on it. -/
theorem sampleWordsDecode : Obligations.SampleWordsDecode := by
  unfold Obligations.SampleWordsDecode
  decide

end Sys2Proof

namespace Sys2Proof.Machine

/-- Settles O4: bytes of the right number are one of the three descriptors, and so is what decodes with no byte left over. -/
theorem descriptorLengthIsExact : Obligations.DescriptorLengthIsExact := by
  intro d
  rw [spellsOperation_iff]
  constructor
  · rintro (rfl | ⟨o, p, a, b, rfl⟩ | ⟨raw, rfl⟩)
    · exact ⟨_, decode_opNop []⟩
    · exact ⟨_, decode_encode (.enc o p a b)⟩
    · exact ⟨_, decode_encode (.dec raw)⟩
  · rintro ⟨i, h⟩
    rcases decode_cases h with ⟨hd, -⟩ | ⟨o, p, a, b, hd, -⟩ | ⟨raw, hd, -⟩
    · exact .inl hd
    · exact .inr (.inl ⟨o, p, a, b, hd.trans (List.append_nil _)⟩)
    · exact .inr (.inr ⟨raw, hd.trans (List.append_nil _)⟩)

/-! ## The effect under every name -/

/-- A well-formed instruction that expands to an ENC latches that ENC's frame. -/
theorem exec_of_expand_enc {i : Instr} {o : Byte} {p : Vector Byte 12} {a b : Byte} (hi : i.wellFormed = true)
    (hx : i.expand = .enc o p a b) (s : State) : exec i s = .next (s.latchFrame (commandFrame o p a b)) := by
  obtain ⟨t, ht⟩ := exec_next_of_wellFormed hi s
  rw [ht, eq_latchFrame_of_exec hx ht]

theorem exec_of_expand_dec {i : Instr} {raw : Vector Byte 10} (hi : i.wellFormed = true) (hx : i.expand = .dec raw)
    (s : State) : exec i s = .next (s.latchResponse raw) := by
  obtain ⟨t, ht⟩ := exec_next_of_wellFormed hi s
  rw [ht, eq_latchResponse_of_exec hx ht]

/-- Every instruction's operation is its own expansion, and is well formed. -/
theorem expand_expand_and_wellFormed (i : Instr) : i.expand.expand = i.expand ∧ i.expand.wellFormed = true := by
  rcases expand_cases i with rfl | ⟨o, p, a, b, hx⟩ | ⟨raw, hx⟩
  · exact ⟨rfl, rfl⟩
  · rw [hx]
    exact ⟨rfl, rfl⟩
  · rw [hx]
    exact ⟨rfl, rfl⟩

/-- Only NOP expands to NOP. -/
theorem eq_nop_of_expand {i : Instr} (h : i.expand = .nop) : i = .nop := by
  rcases expand_cases i with rfl | ⟨o, p, a, b, hx⟩ | ⟨raw, hx⟩
  · rfl
  · cases hx.symm.trans h
  · cases hx.symm.trans h

/-- What a well-formed instruction does is determined by the operation it expands to. -/
theorem exec_eq_of_expand_eq {i j : Instr} (hi : i.wellFormed = true) (hj : j.wellFormed = true)
    (h : j.expand = i.expand) (s : State) : exec j s = exec i s := by
  rcases expand_cases i with rfl | ⟨o, p, a, b, hx⟩ | ⟨raw, hx⟩
  · rw [eq_nop_of_expand h]
  · rw [exec_of_expand_enc hi hx, exec_of_expand_enc hj (h.trans hx)]
  · rw [exec_of_expand_dec hi hx, exec_of_expand_dec hj (h.trans hx)]

/-- Settles O41: an instruction, its expansion and its canonical name are well formed with one expansion. -/
theorem namesDoNotChangeTheEffect : Obligations.NamesDoNotChangeTheEffect := by
  intro i s hi
  obtain ⟨hxx, hxw⟩ := expand_expand_and_wellFormed i
  exact ⟨(exec_eq_of_expand_eq hi hxw hxx s).symm,
    exec_eq_of_expand_eq hi (canonical_wellFormed i) (canonical_expand i) s⟩

end Sys2Proof.Machine
end

section
/-! PROOFS. What the opcode table's rows cover: by a row's mask, and one row against another (30_encoding.md R79). -/

namespace Sys2Proof

@[simp] theorem and_fullByte (b : Byte) : b &&& 255#8 = b := BitVec.and_allOnes

/-! ## Masks -/

/-- Two masks applied one after the other are one mask. -/
theorem zipWith_and_assoc (f m n : List Byte) :
    List.zipWith (· &&& ·) (List.zipWith (· &&& ·) f m) n = List.zipWith (· &&& ·) f (List.zipWith (· &&& ·) m n) := by
  induction f generalizing m n with
  | nil => rfl
  | cons b f ih =>
    cases m <;> cases n <;> simp [ih, BitVec.and_assoc]

/-- Two masks can be applied in either order. -/
theorem zipWith_and_right_comm (f m n : List Byte) :
    List.zipWith (· &&& ·) (List.zipWith (· &&& ·) f m) n = List.zipWith (· &&& ·) (List.zipWith (· &&& ·) f n) m := by
  rw [zipWith_and_assoc, zipWith_and_assoc, List.zipWith_comm_of_comm (f := (· &&& ·)) (l := m) BitVec.and_comm]

/-- A mask with every bit set changes nothing. -/
theorem zipWith_and_fullMask (f : List Byte) : List.zipWith (· &&& ·) f (List.replicate f.length 0xFF) = f := by
  induction f with
  | nil => rfl
  | cons b f ih => simpa [List.replicate_succ] using ih

/-! ## Rows -/

theorem TableRow.covers_iff {r : TableRow} {f : List Byte} :
    r.covers f = true ↔ f.length = r.pattern.length ∧ List.zipWith (· &&& ·) f r.mask = r.pattern := by
  simp [TableRow.covers]

/-- A byte that a row's mask takes whole is the row's own. -/
theorem TableRow.pattern_getElem?_of_covers {r : TableRow} {f : List Byte} (h : r.covers f = true) {k : Nat} {b : Byte}
    (hm : r.mask[k]? = some 0xFF) (hb : f[k]? = some b) : r.pattern[k]? = some b := by
  rw [← (covers_iff.mp h).2, List.getElem?_zipWith, hb, hm]
  exact congrArg some (and_fullByte b)

/-- A row whose mask has every bit set covers its pattern alone. -/
theorem TableRow.covers_iff_of_fullMask {r : TableRow} (hm : r.mask = List.replicate r.pattern.length 0xFF) (f : List Byte) :
    r.covers f = true ↔ f = r.pattern := by
  rw [covers_iff, hm]
  constructor
  · rintro ⟨hlen, hf⟩
    rwa [← hlen, zipWith_and_fullMask] at hf
  · rintro rfl
    exact ⟨rfl, zipWith_and_fullMask _⟩

/-- Do the patterns of two rows agree where both masks look? -/
def TableRow.agrees (r₁ r₂ : TableRow) : Bool :=
  List.zipWith (· &&& ·) r₁.pattern r₂.mask == List.zipWith (· &&& ·) r₂.pattern r₁.mask

/-- Rows that cover one frame agree. -/
theorem TableRow.agrees_of_covers {r₁ r₂ : TableRow} {f : List Byte} (h₁ : r₁.covers f = true) (h₂ : r₂.covers f = true) :
    r₁.agrees r₂ = true := by
  rw [agrees, beq_iff_eq, ← (covers_iff.mp h₁).2, ← (covers_iff.mp h₂).2, zipWith_and_right_comm]

/-- Is every bit a row looks at looked at by another too, and the same there? -/
def TableRow.generalizes (g r : TableRow) : Bool :=
  r.pattern.length == g.pattern.length && List.zipWith (· &&& ·) r.mask g.mask == g.mask &&
    List.zipWith (· &&& ·) r.pattern g.mask == g.pattern

/-- A more general row covers every frame of a more specific one. -/
theorem TableRow.covers_of_generalizes {g r : TableRow} {f : List Byte} (hg : g.generalizes r = true)
    (h : r.covers f = true) : g.covers f = true := by
  simp only [generalizes, Bool.and_eq_true, beq_iff_eq] at hg
  obtain ⟨⟨hlen, hmask⟩, hpattern⟩ := hg
  obtain ⟨hf, hmatch⟩ := covers_iff.mp h
  refine covers_iff.mpr ⟨hf.trans hlen, ?_⟩
  calc List.zipWith (· &&& ·) f g.mask
    _ = List.zipWith (· &&& ·) f (List.zipWith (· &&& ·) r.mask g.mask) := by rw [hmask]
    _ = List.zipWith (· &&& ·) r.pattern g.mask := by rw [← zipWith_and_assoc, hmatch]
    _ = g.pattern := hpattern

/-! ## The builder rows and the response rows -/

theorem builderRows_eq_of_covers {r₁ r₂ : TableRow} {f : List Byte} (hr₁ : r₁ ∈ builderRows) (hr₂ : r₂ ∈ builderRows)
    (h₁ : r₁.covers f = true) (h₂ : r₂.covers f = true) : r₁ = r₂ := by
  have hdisjoint : ∀ r₁ ∈ builderRows, ∀ r₂ ∈ builderRows, r₁.agrees r₂ = true → r₁ = r₂ := by decide
  exact hdisjoint r₁ hr₁ r₂ hr₂ (TableRow.agrees_of_covers h₁ h₂)

theorem responseRows_eq_of_covers {r₁ r₂ : TableRow} {f : List Byte} (hr₁ : r₁ ∈ responseRows) (hr₂ : r₂ ∈ responseRows)
    (h₁ : r₁.covers f = true) (h₂ : r₂.covers f = true) : r₁ = r₂ := by
  have hdisjoint : ∀ r₁ ∈ responseRows, ∀ r₂ ∈ responseRows, r₁.agrees r₂ = true → r₁ = r₂ := by decide
  exact hdisjoint r₁ hr₁ r₂ hr₂ (TableRow.agrees_of_covers h₁ h₂)

theorem cmdFrameRow_covers_of_builderRow {r : TableRow} {f : List Byte} (hr : r ∈ builderRows) (h : r.covers f = true) :
    cmdFrameRow.covers f = true := by
  have hgeneral : ∀ r ∈ builderRows, cmdFrameRow.generalizes r = true := by decide
  exact TableRow.covers_of_generalizes (hgeneral r hr) h

theorem cmdFrameRow_maskBits_lt {r : TableRow} (hr : r ∈ builderRows) : cmdFrameRow.maskBits < r.maskBits := by
  revert r
  decide

/-- Settles O8: builder rows differ where both masks look, and so do the response rows; CMD_FRAME's row looks only at
markers and command-id, which every builder row has the same. -/
theorem tableRowsAreUnambiguous : Obligations.TableRowsAreUnambiguous :=
  ⟨fun _ hr₁ _ hr₂ _ h₁ h₂ => builderRows_eq_of_covers hr₁ hr₂ h₁ h₂,
    fun _ hr _ h => ⟨cmdFrameRow_covers_of_builderRow hr h, cmdFrameRow_maskBits_lt hr⟩,
    fun _ hr₁ _ hr₂ _ h₁ h₂ => responseRows_eq_of_covers hr₁ hr₂ h₁ h₂⟩

/-! ## The operation rows and ENCB's row -/

theorem operationRow_covers_iff {r : TableRow} (hr : r ∈ operationRows) (f : List Byte) :
    r.covers f = true ↔ f = r.pattern := by
  have hmask : ∀ r ∈ operationRows, r.mask = List.replicate r.pattern.length 0xFF := by decide
  exact TableRow.covers_iff_of_fullMask (hmask r hr) f

/-- The operation rows cover the three operation bytes and nothing else. -/
theorem exists_operationRow_covers_iff (f : List Byte) :
    (∃ r ∈ operationRows, r.covers f = true) ↔ f = [0x00] ∨ f = [0x01] ∨ f = [0x02] := by
  have hrows : (∃ r ∈ operationRows, r.covers f = true) ↔ ∃ r ∈ operationRows, f = r.pattern :=
    exists_congr fun r => and_congr_right fun hr => operationRow_covers_iff hr f
  rw [hrows]
  simp [operationRows]

/-- The operation row of a name covers that name's operation byte and nothing else. -/
theorem exists_operationRow_named_covers_iff {x : Row × Byte}
    (hx : x ∈ [(Row.nop, (0x00 : Byte)), (.enc, 0x01), (.dec, 0x02)]) (f : List Byte) :
    (∃ r ∈ operationRows, r.row = x.1 ∧ r.covers f = true) ↔ f = [x.2] := by
  have hrows : (∃ r ∈ operationRows, r.row = x.1 ∧ r.covers f = true) ↔
      ∃ r ∈ operationRows, r.row = x.1 ∧ f = r.pattern :=
    exists_congr fun r => and_congr_right fun hr => and_congr_right fun _ => operationRow_covers_iff hr f
  rw [hrows]
  simp only [List.mem_cons, List.not_mem_nil, or_false] at hx
  rcases hx with rfl | rfl | rfl <;> simp [operationRows]

/-- Every operation byte is one of the three or reserved (R60, R77). -/
theorem operationByte_iff (op : Byte) : (op = 0x00 ∨ op = 0x01 ∨ op = 0x02) ↔ ¬ (opsel op = 3 ∨ mbz op ≠ 0) := by
  revert op
  decide

theorem encbRow_covers_encDescriptor_iff (o : Byte) (p : Vector Byte 12) (a b : Byte) :
    encbRow.covers (encDescriptor o p a b) = true ↔ a = 0xFF ∧ b = 0xFF := by
  simp [TableRow.covers_iff, encbRow, encDescriptor]

/-- What ENCB's row covers has the length and the operation byte of an ENC descriptor. -/
theorem exists_encDescriptor_of_encbRow_covers {f : List Byte} (h : encbRow.covers f = true) :
    ∃ o p a b, f = encDescriptor o p a b := by
  match f, h with
  | op :: f, h =>
    have hop : op = opEnc := by
      simpa [encbRow, eq_comm] using TableRow.pattern_getElem?_of_covers h (k := 0) rfl List.getElem?_cons_zero
    have hlen : (op :: f).length = 16 := (TableRow.covers_iff.mp h).1
    have hspells : Machine.spellsOperation (op :: f) = true := by
      rw [Machine.spellsOperation, hlen, hop]
      rfl
    subst hop
    rcases Machine.spellsOperation_iff.mp hspells with hd | henc | ⟨raw, hd⟩
    · exact absurd (List.cons.inj hd).1 (by decide)
    · exact henc
    · exact absurd (List.cons.inj hd).1 (by decide)

theorem encbRow_covers_iff (f : List Byte) : encbRow.covers f = true ↔ ∃ o p, f = encode (.encb o p) := by
  constructor
  · intro h
    obtain ⟨o, p, a, b, rfl⟩ := exists_encDescriptor_of_encbRow_covers h
    obtain ⟨rfl, rfl⟩ := (encbRow_covers_encDescriptor_iff o p a b).mp h
    exact ⟨o, p, rfl⟩
  · rintro ⟨o, p, rfl⟩
    exact (encbRow_covers_encDescriptor_iff o p _ _).mpr ⟨rfl, rfl⟩

/-- Settles O56: an operation row's mask takes its byte whole, and ENCB's row looks at the operation byte, the length and
the two address bytes. -/
theorem operationAndPseudoRowsCover : Obligations.OperationAndPseudoRowsCover := by
  refine ⟨rfl, rfl, ?named, exists_operationRow_covers_iff, ?bytes, ?enc, encbRow_covers_iff⟩
  case named => exact fun x hx f => exists_operationRow_named_covers_iff hx f
  case bytes =>
    intro op
    rw [exists_operationRow_covers_iff, ← operationByte_iff]
    simp only [List.cons.injEq, and_true]
  case enc => exact encbRow_covers_encDescriptor_iff

end Sys2Proof
end

section
/-! PROOFS. The decoder's names are the opcode table's (30_encoding.md R79): a builder's or a response's row covers the frame of
its operation, and is the row with the most mask bits that does. -/

namespace Sys2Proof

open Machine

/-- Is the instruction one of those a builder row stands for? -/
abbrev Instr.IsBuilder (i : Instr) : Prop := i.row ∈ builderRows.map TableRow.row

/-- Is the instruction one of those a response row stands for? -/
abbrev Instr.IsResponse (i : Instr) : Prop := i.row ∈ responseRows.map TableRow.row

/-! ## A name's own row covers its frame -/

theorem exists_fixedBuilderRow_covers {row : Row} {o sub value : Byte}
    (hr : fixedBuilderRow row o sub value ∈ builderRows) :
    ∃ r ∈ builderRows, r.row = row ∧ r.covers (commandFrame o (settingPayload sub value) 0xFF 0xFF).toList = true := by
  refine ⟨_, hr, rfl, ?_⟩
  simp [TableRow.covers_iff, fixedBuilderRow, commandFrame, settingPayload]

theorem setIdRow_covers (p : Vector Byte 12) :
    setIdRow.covers (commandFrame Config.opSetId p 0xFF 0xFF).toList = true := by
  simp [TableRow.covers_iff, setIdRow, commandFrame]

theorem setPeriodRow_covers (minutes : Byte) :
    setPeriodRow.covers (commandFrame Config.opPeriod (settingPayload Config.subWrite minutes) 0xFF 0xFF).toList = true := by
  simp [TableRow.covers_iff, setPeriodRow, commandFrame, settingPayload]

/-- A builder's row covers the frame of the ENC the builder is. -/
theorem exists_builderRow_covers {i : Instr} {o : Byte} {p : Vector Byte 12} {a b : Byte} (hi : i.IsBuilder)
    (hx : i.expand = .enc o p a b) :
    ∃ r ∈ builderRows, r.row = i.row ∧ r.covers (commandFrame o p a b).toList = true := by
  cases i with
  | nop | dec | rspData | rspSetting => cases hx
  | enc => exact absurd hi (show Row.enc ∉ _ by decide)
  | encb => exact absurd hi (show Row.encb ∉ _ by decide)
  | cmdFrame => exact absurd hi (show Row.cmdFrame ∉ _ by decide)
  | cmdSetId =>
    cases hx
    exact ⟨setIdRow, by decide, rfl, setIdRow_covers p⟩
  | cmdSetPeriod n =>
    cases hx
    exact ⟨setPeriodRow, by decide, rfl, setPeriodRow_covers (minutesByte n)⟩
  | cmdQuery =>
    cases hx
    exact exists_fixedBuilderRow_covers (sub := 0x00) (value := 0x00) (by decide)
  | _ =>
    cases hx
    exact exists_fixedBuilderRow_covers (by decide)

theorem responseRow_covers {row : Row} {type : Byte} (p : Vector Byte 6) (c : Byte) :
    TableRow.covers ⟨row, [0xAA, type, 0, 0, 0, 0, 0, 0, 0, 0xAB], [0xFF, 0xFF, 0, 0, 0, 0, 0, 0, 0, 0xFF]⟩
      (responseFrame type p c).toList = true := by
  simp [TableRow.covers_iff, responseFrame]

/-- A response's row covers the frame of the DEC the response is. -/
theorem exists_responseRow_covers {i : Instr} {raw : Vector Byte 10} (hi : i.IsResponse) (hx : i.expand = .dec raw) :
    ∃ r ∈ responseRows, r.row = i.row ∧ r.covers raw.toList = true := by
  cases i with
  | rspData p c =>
    cases hx
    exact ⟨_, List.mem_cons_self, rfl, responseRow_covers p c⟩
  | rspSetting p c =>
    cases hx
    exact ⟨_, List.mem_cons_of_mem _ List.mem_cons_self, rfl, responseRow_covers p c⟩
  | dec => exact absurd hi (show Row.dec ∉ _ by decide)
  | _ => cases hx

/-! ## Which instructions come back as themselves -/

theorem nameDefaultEnc_eq_encb_or_isBuilder (o : Byte) (p : Vector Byte 12) :
    nameDefaultEnc o p = .encb o p ∨ (nameDefaultEnc o p).IsBuilder := by
  unfold nameDefaultEnc
  repeat' split
  all_goals simp [Instr.IsBuilder, Instr.row, builderRows, fixedBuilderRow, setIdRow, setPeriodRow]

theorem nameDec_eq_dec_or_isResponse (raw : Vector Byte 10) :
    nameDec raw = .dec raw ∨ (nameDec raw).IsResponse := by
  unfold nameDec
  repeat' split
  all_goals simp [Instr.IsResponse, Instr.row, responseRows]

theorem canonical_enc {a b : Byte} (h : a ≠ 0xFF ∨ b ≠ 0xFF) (o : Byte) (p : Vector Byte 12) :
    (Instr.enc o p a b).canonical = .enc o p a b :=
  if_neg (Classical.not_and_iff_not_or_not.mpr h)

/-- An ENCB whose frame no builder row covers keeps its name. -/
theorem canonical_encb {o : Byte} {p : Vector Byte 12}
    (h : ∀ r ∈ builderRows, r.covers (commandFrame o p 0xFF 0xFF).toList = false) :
    (Instr.encb o p).canonical = .encb o p := by
  rcases nameDefaultEnc_eq_encb_or_isBuilder o p with hname | hbuilder
  · exact hname
  · obtain ⟨r, hr, -, hc⟩ := exists_builderRow_covers hbuilder (nameEnc_expand o p 0xFF 0xFF)
    exact absurd hc (Bool.eq_false_iff.mp (h r hr))

/-- A DEC whose operand no response row covers keeps its name. -/
theorem canonical_dec {raw : Vector Byte 10} (h : ∀ r ∈ responseRows, r.covers raw.toList = false) :
    (Instr.dec raw).canonical = .dec raw := by
  rcases nameDec_eq_dec_or_isResponse raw with hname | hresponse
  · exact hname
  · obtain ⟨r, hr, -, hc⟩ := exists_responseRow_covers hresponse (nameDec_expand raw)
    exact absurd hc (Bool.eq_false_iff.mp (h r hr))

@[simp] theorem settingPayload_inj {sub value sub' value' : Byte} :
    settingPayload sub value = settingPayload sub' value' ↔ sub = sub' ∧ value = value' := by
  simp [settingPayload]

@[simp] theorem settingPayload_value (sub value : Byte) : (settingPayload sub value)[1] = value := rfl

theorem minutesByte_toNat_of_admitted {n : Int} (h : minutesAdmitted n) : ((minutesByte n).toNat : Int) = n := by
  have hlo : 0 ≤ n := h.1
  have hhi : n ≤ 30 := h.2
  simp only [minutesByte, BitVec.toNat_ofInt]
  omega

/-- CMD_SET_PERIOD's payload differs from CMD_GET_PERIOD's in its sub-code, and keeps its minutes byte. -/
theorem canonical_cmdSetPeriod {n : Int} (h : minutesAdmitted n) : (Instr.cmdSetPeriod n).canonical = .cmdSetPeriod n := by
  calc (Instr.cmdSetPeriod n).canonical
    _ = nameDefaultEnc Config.opPeriod (settingPayload Config.subWrite (minutesByte n)) := rfl
    _ = .cmdSetPeriod n := by simp [nameDefaultEnc, minutesByte_toNat_of_admitted h, h]

theorem canonical_rspData (p : Vector Byte 6) (c : Byte) : (Instr.rspData p c).canonical = .rspData p c :=
  congrArg (Instr.rspData · c) (vec6_eta p)

theorem canonical_rspSetting (p : Vector Byte 6) (c : Byte) : (Instr.rspSetting p c).canonical = .rspSetting p c :=
  congrArg (Instr.rspSetting · c) (vec6_eta p)

/-- An instruction under its canonical name comes back from its words as itself. -/
theorem decode_encode_of_canonical {i : Instr} (h : i.canonical = i) : decode (encode i) = .instr i [] := by
  rw [decode_encode, h]

/-- Settles O6: each of these instructions bears its canonical name, and CMD_FRAME's words are its ENC's. -/
theorem everyOperandSurvivesTheRoundTrip : Obligations.EveryOperandSurvivesTheRoundTrip := by
  refine ⟨rfl, ?enc, ?encb, ?dec, ?setId, ?setPeriod, ?fixed, ?rspData, ?rspSetting⟩
  case enc =>
    intro o p a b h
    have henc := decode_encode_of_canonical (canonical_enc h o p)
    exact ⟨henc, henc⟩
  case encb => exact fun o p h => decode_encode_of_canonical (canonical_encb h)
  case dec => exact fun raw h => decode_encode_of_canonical (canonical_dec h)
  case setId => exact fun p => decode_encode_of_canonical rfl
  case setPeriod => exact fun n hlo hhi => decode_encode_of_canonical (canonical_cmdSetPeriod ⟨hlo, hhi⟩)
  case fixed =>
    have hcanonical : ∀ i ∈ [Instr.cmdGetMode, .cmdSetModeActive, .cmdSetModeQuery, .cmdQuery, .cmdGetSleep, .cmdSleep,
      .cmdWork, .cmdGetPeriod], i.canonical = i := by decide
    exact fun i hi => decode_encode_of_canonical (hcanonical i hi)
  case rspData => exact fun p c => decode_encode_of_canonical (canonical_rspData p c)
  case rspSetting => exact fun p c => decode_encode_of_canonical (canonical_rspSetting p c)

/-! ## The row with the most mask bits -/

/-- Of rows no two of which cover one frame, a row that covers it is the only one. -/
theorem filter_covers_eq_singleton {rows : List TableRow} {r : TableRow} {f : List Byte} (hnodup : rows.Nodup)
    (hr : r ∈ rows) (hc : r.covers f = true) (honly : ∀ r' ∈ rows, r'.covers f = true → r' = r) :
    (rows.filter fun r => r.covers f) = [r] := by
  have hsame : ∀ r' ∈ rows, r'.covers f = (r' == r) := fun r' hr' => by
    rw [Bool.eq_iff_iff, beq_iff_eq]
    exact ⟨honly r' hr', fun h => h ▸ hc⟩
  rw [List.filter_congr hsame, List.filter_beq, hnodup.count, if_pos hr, List.replicate_one]

/-- A row covers only frames of its pattern's length. -/
theorem filter_covers_eq_nil_of_length {rows : List TableRow} {f : List Byte}
    (h : ∀ r ∈ rows, f.length ≠ r.pattern.length) : (rows.filter fun r => r.covers f) = [] :=
  List.filter_eq_nil_iff.mpr fun r hr hc => h r hr (TableRow.covers_iff.mp hc).1

/-- A frame CMD_FRAME's row covers is named by it unless a builder row covers the frame too. -/
theorem nameFrame_of_cmdFrameRow {f : List Byte} (hcmd : cmdFrameRow.covers f = true) :
    nameFrame f = ((builderRows.filter fun r => r.covers f).foldl TableRow.moreSpecific (some cmdFrameRow)).map
      TableRow.row := by
  have hresponses : (responseRows.filter fun r => r.covers f) = [] := by
    refine filter_covers_eq_nil_of_length ?_
    rw [(TableRow.covers_iff.mp hcmd).1]
    decide
  rw [nameFrame, frameRows, List.filter_append, hresponses, List.append_nil,
    List.filter_cons_of_pos (p := fun r : TableRow => r.covers f) hcmd]
  rfl

/-- The builder row that covers a frame names it. -/
theorem nameFrame_of_builderRow {r : TableRow} {f : List Byte} (hr : r ∈ builderRows) (hc : r.covers f = true) :
    nameFrame f = some r.row := by
  have hbuilders : (builderRows.filter fun r => r.covers f) = [r] :=
    filter_covers_eq_singleton (by decide) hr hc fun _ hr' hc' => builderRows_eq_of_covers hr' hr hc' hc
  rw [nameFrame_of_cmdFrameRow (cmdFrameRow_covers_of_builderRow hr hc), hbuilders]
  simp [TableRow.moreSpecific, cmdFrameRow_maskBits_lt hr]

/-- The response row that covers a frame names it. -/
theorem nameFrame_of_responseRow {r : TableRow} {f : List Byte} (hr : r ∈ responseRows) (hc : r.covers f = true) :
    nameFrame f = some r.row := by
  have hlen : f.length = 10 := by
    have hrows : ∀ r ∈ responseRows, r.pattern.length = 10 := by decide
    rw [(TableRow.covers_iff.mp hc).1, hrows r hr]
  have hcommands : ((cmdFrameRow :: builderRows).filter fun r => r.covers f) = [] := by
    refine filter_covers_eq_nil_of_length ?_
    rw [hlen]
    decide
  have hresponses : (responseRows.filter fun r => r.covers f) = [r] :=
    filter_covers_eq_singleton (by decide) hr hc fun _ hr' hc' => responseRows_eq_of_covers hr' hr hc' hc
  rw [nameFrame, frameRows, List.filter_append, hcommands, hresponses]
  rfl

theorem cmdFrameRow_covers (o : Byte) (p : Vector Byte 12) (a b : Byte) :
    cmdFrameRow.covers (commandFrame o p a b).toList = true := by
  simp [TableRow.covers_iff, cmdFrameRow, commandFrame]

/-- Every builder row takes the two address bytes whole and has them 0xFF. -/
theorem defaultAddr_of_builderRow_covers {r : TableRow} (hr : r ∈ builderRows) {o : Byte} {p : Vector Byte 12} {a b : Byte}
    (hc : r.covers (commandFrame o p a b).toList = true) : a = 0xFF ∧ b = 0xFF := by
  have hrows : ∀ r ∈ builderRows, ∀ k ∈ [15, 16], r.mask[k]? = some 0xFF ∧ r.pattern[k]? = some 0xFF := by decide
  obtain ⟨hmask₁, haddr₁⟩ := hrows r hr 15 (by decide)
  obtain ⟨hmask₂, haddr₂⟩ := hrows r hr 16 (by decide)
  have ha : r.pattern[15]? = some a := TableRow.pattern_getElem?_of_covers hc hmask₁ rfl
  have hb : r.pattern[16]? = some b := TableRow.pattern_getElem?_of_covers hc hmask₂ rfl
  exact ⟨Option.some.inj (ha.symm.trans haddr₁), Option.some.inj (hb.symm.trans haddr₂)⟩

/-- A command frame with other than the default addresses is named CMD_FRAME. -/
theorem nameFrame_of_other_addresses {a b : Byte} (h : a ≠ 0xFF ∨ b ≠ 0xFF) (o : Byte) (p : Vector Byte 12) :
    nameFrame (commandFrame o p a b).toList = some .cmdFrame := by
  have hbuilders : (builderRows.filter fun r => r.covers (commandFrame o p a b).toList) = [] :=
    List.filter_eq_nil_iff.mpr fun r hr hc => Classical.not_and_iff_not_or_not.mpr h (defaultAddr_of_builderRow_covers hr hc)
  rw [nameFrame_of_cmdFrameRow (cmdFrameRow_covers o p a b), hbuilders]
  rfl

/-- The frame a builder leaves in TXF is named by the builder's row. -/
theorem nameFrame_txf_of_isBuilder {i : Instr} {s t : State} (hi : i.IsBuilder) (hencode : i.isEncode = true)
    (h : exec i s = .next t) : nameFrame t.txf.toList = some i.row := by
  obtain ⟨o, p, a, b, hx⟩ := Instr.expand_of_isEncode hencode
  obtain ⟨r, hr, hrow, hc⟩ := exists_builderRow_covers hi hx
  rw [eq_latchFrame_of_exec hx h, State.latchFrame_txf, nameFrame_of_builderRow hr hc, hrow]

/-- The operand of a response's DEC is named by the response's row. -/
theorem nameFrame_of_isResponse {i : Instr} {raw : Vector Byte 10} (hi : i.IsResponse) (hx : i.expand = .dec raw) :
    nameFrame raw.toList = some i.row := by
  obtain ⟨r, hr, hrow, hc⟩ := exists_responseRow_covers hi hx
  rw [nameFrame_of_responseRow hr hc, hrow]

/-- Settles O9: the builder's row, or the response's, covers the frame, and no other row with as many mask bits does. -/
theorem tableRowNamesTheFrame : Obligations.TableRowNamesTheFrame := by
  refine ⟨?fixed, ?setId, ?setPeriod, ?enc, ?rspData, ?rspSetting⟩
  case fixed =>
    have hbuilder : ∀ i ∈ [Instr.cmdGetMode, .cmdSetModeActive, .cmdSetModeQuery, .cmdQuery, .cmdGetSleep, .cmdSleep,
      .cmdWork, .cmdGetPeriod], i.IsBuilder ∧ i.isEncode = true := by decide
    exact fun i hi s t h => nameFrame_txf_of_isBuilder (hbuilder i hi).1 (hbuilder i hi).2 h
  case setId => exact fun p s t h => nameFrame_txf_of_isBuilder (show Row.cmdSetId ∈ _ by decide) rfl h
  case setPeriod => exact fun n s t h => nameFrame_txf_of_isBuilder (show Row.cmdSetPeriod ∈ _ by decide) rfl h
  case enc =>
    intro o p a b s t haddr h
    rw [eq_latchFrame_of_exec rfl h, State.latchFrame_txf, nameFrame_of_other_addresses haddr]
  case rspData => exact fun p c => nameFrame_of_isResponse (i := .rspData p c) (show Row.rspData ∈ _ by decide) rfl
  case rspSetting =>
    exact fun p c => nameFrame_of_isResponse (i := .rspSetting p c) (show Row.rspSetting ∈ _ by decide) rfl

end Sys2Proof
end

section
/-! PROOFS. The frames themselves: the layout of the one an ENC leaves (30_encoding.md R64, R65), the verdict on the one a DEC
consumes (42_decode.md R131 to R134), and what is refused (R77). -/

namespace Sys2Proof.Machine

/-! ## The verdict, check by check -/

section Verdict

variable {raw : Vector Byte 10}

theorem verdict_of_not_framed (hf : framed raw = false) :
    verdict raw = (Config.rxstErrFraming, Config.rxtagNone) := by
  simp [verdict, hf]

theorem verdict_of_mismatch (hf : framed raw = true) (hc : checksumMatches raw = false) :
    verdict raw = (Config.rxstErrChecksum, Config.rxtagNone) := by
  simp [verdict, hf, hc]

theorem verdict_of_unknownType (hf : framed raw = true) (hc : checksumMatches raw = true) (hd : raw[1] ≠ Config.tagData)
    (hs : raw[1] ≠ Config.tagSetting) : verdict raw = (Config.rxstErrType, Config.rxtagNone) := by
  simp only [verdict, hf, hc, beq_eq_false_iff_ne.mpr hd, beq_eq_false_iff_ne.mpr hs]
  rfl

theorem verdict_of_data (hf : framed raw = true) (hc : checksumMatches raw = true) (hd : raw[1] = Config.tagData) :
    verdict raw = (Config.rxstOk, Config.rxtagData) := by
  simp [verdict, hf, hc, hd]

theorem verdict_of_setting (hf : framed raw = true) (hc : checksumMatches raw = true) (hs : raw[1] = Config.tagSetting) :
    verdict raw = (Config.rxstOk, Config.rxtagSetting) := by
  simp [verdict, hf, hc, hs]

theorem framed_eq_false_iff : framed raw = false ↔ raw[0] ≠ Config.hdr ∨ raw[9] ≠ Config.tail := by
  rw [Bool.eq_false_iff, ne_eq, framed_iff, Classical.not_and_iff_not_or_not]

theorem checksumMatches_eq_false_iff : checksumMatches raw = false ↔ raw[8] ≠ responseChecksum raw := by
  rw [Bool.eq_false_iff, ne_eq, checksumMatches_iff]

end Verdict

/-- A DEC's status is its verdict's. -/
theorem exec_dec_rxst {raw : Vector Byte 10} {v : Status × Tag} (h : verdict raw = v) (s : State) :
    ∃ t, exec (.dec raw) s = .next t ∧ t.rxst = v.1 :=
  ⟨_, exec_dec raw s, congrArg Prod.fst h⟩

/-! ## Refused and legal encodings -/

theorem issue_reserved {op : Byte} (h : opsel op = 3 ∨ mbz op ≠ 0) (rest : List Byte) (s : State) :
    issue (op :: rest) s = .refused (.reservedOperation op) := by
  rw [issue, decode_reserved h]
  rfl

theorem encodeCommandWith_true_of_unknown {o : Byte} (h : Config.opidKnown o = false) (p : Vector Byte 12) (a b : Byte)
    (s : State) : encodeCommandWith true o p a b s = .refused (.unknownOpid o) := by
  simp [encodeCommandWith, h]

/-- Settles O3: the decoder rejects a reserved byte, ENC looks at no operation id, and each error is the verdict of the first
check that fails. -/
theorem reservedAndLegalEncodings : Obligations.ReservedAndLegalEncodings := by
  refine ⟨?reserved, ?unknownOpid, ?framing, ?checksum, ?type, operationByte_iff⟩
  case reserved => exact fun op rest s h => (step_present s _).trans (issue_reserved h rest s)
  case unknownOpid => exact fun o p a b s h => ⟨rfl, encodeCommandWith_true_of_unknown h p a b s⟩
  case framing => exact fun raw s h => exec_dec_rxst (verdict_of_not_framed (framed_eq_false_iff.mpr h)) s
  case checksum =>
    intro raw s hhdr htail hsum
    exact exec_dec_rxst (verdict_of_mismatch ((framed_iff raw).mpr ⟨hhdr, htail⟩)
      (checksumMatches_eq_false_iff.mpr hsum)) s
  case type =>
    intro raw s hhdr htail hsum hdata hsetting
    exact exec_dec_rxst (verdict_of_unknownType ((framed_iff raw).mpr ⟨hhdr, htail⟩)
      ((checksumMatches_iff raw).mpr hsum) hdata hsetting) s

/-! ## The command frame -/

theorem commandFrame_payload (o : Byte) (p : Vector Byte 12) (a b : Byte) {k : Nat} (h : k < 12) :
    (commandFrame o p a b)[3 + k] = p[k] := by
  match k, h with
  | 0, _ | 1, _ | 2, _ | 3, _ | 4, _ | 5, _ | 6, _ | 7, _ | 8, _ | 9, _ | 10, _ | 11, _ => rfl

/-- Settles O22: CMD_FRAME latches the frame ENC does, whose body is the 15 bytes its checksum is over. -/
theorem commandFrameLayout : Obligations.CommandFrameLayout := by
  intro o p a b s
  have hbody := commandFrame_body o p a b
  refine ⟨s.latchFrame (commandFrame o p a b), rfl, rfl, rfl, rfl, rfl, rfl, fun k h => commandFrame_payload o p a b h, rfl,
    rfl, ?checksum, rfl, ?bodyLength, s.latchFrame_decoderSide _, s.latchFrame_hostSide _⟩
  case checksum =>
    rw [State.latchFrame_txf, hbody]
    rfl
  case bodyLength =>
    rw [State.latchFrame_txf, hbody]
    rfl

/-! ## The response frame -/

section ResponseFrame

variable (type : Byte) (b : Vector Byte 6) (c : Byte)

theorem framed_responseFrame : framed (responseFrame type b c) = true := rfl

@[simp] theorem responseChecksum_responseFrame : responseChecksum (responseFrame type b c) = csum b.toList :=
  congrArg csum (vec6_toList b).symm

@[simp] theorem rawPayload_responseFrame : rawPayload (responseFrame type b c) = b := vec6_eta b

theorem checksumMatches_responseFrame :
    checksumMatches (responseFrame type b (csum b.toList)) = true :=
  (checksumMatches_iff _).mpr (responseChecksum_responseFrame type b _).symm

theorem verdict_responseFrame_of_ne {c : Byte} (hc : c ≠ csum b.toList) :
    verdict (responseFrame type b c) = (Config.rxstErrChecksum, Config.rxtagNone) := by
  refine verdict_of_mismatch (framed_responseFrame type b c) (checksumMatches_eq_false_iff.mpr ?_)
  rwa [responseChecksum_responseFrame]

/-- What DEC leaves of a response frame, by the verdict on it. -/
theorem latchResponse_responseFrame {st : Status} {tag : Tag} (hv : verdict (responseFrame type b c) = (st, tag))
    (s : State) : s.latchResponse (responseFrame type b c) = { s with
      rxst := st, rxtag := tag, rxp := b, rxtb := type, rxcsc := csum b.toList, rxcst := c
      pm25 := b[1] ++ b[0], pm10 := b[3] ++ b[2], devid := b[5] ++ b[4], rdv := readingValid st tag } := by
  have hpm25 : rawPm25 (responseFrame type b c) = b[1] ++ b[0] := composeLE_eq_append b[0] b[1]
  have hpm10 : rawPm10 (responseFrame type b c) = b[3] ++ b[2] := composeLE_eq_append b[2] b[3]
  have hdevid : rawDevid (responseFrame type b c) = b[5] ++ b[4] := composeLE_eq_append b[4] b[5]
  rw [State.latchResponse, hv, hpm25, hpm10, hdevid, rawPayload_responseFrame, responseChecksum_responseFrame]
  rfl

end ResponseFrame

/-- Settles O37: the two response rows are the DEC of their frame, framed and with a matching checksum byte. -/
theorem wellFormedResponsesDecode : Obligations.WellFormedResponsesDecode := by
  refine ⟨?data, ?setting, fun b c s => ⟨rfl, rfl⟩, ?mismatch⟩
  case data =>
    intro b s
    have hv := verdict_of_data (framed_responseFrame Config.tagData b _) (checksumMatches_responseFrame Config.tagData b) rfl
    exact congrArg Host.Outcome.next (latchResponse_responseFrame Config.tagData b _ hv s)
  case setting =>
    intro b s
    have hv := verdict_of_setting (framed_responseFrame Config.tagSetting b _)
      (checksumMatches_responseFrame Config.tagSetting b) rfl
    exact congrArg Host.Outcome.next (latchResponse_responseFrame Config.tagSetting b _ hv s)
  case mismatch =>
    intro b c s hc
    exact ⟨_, _, rfl, congrArg Prod.fst (verdict_responseFrame_of_ne Config.tagData b hc), rfl,
      congrArg Prod.fst (verdict_responseFrame_of_ne Config.tagSetting b hc)⟩

end Sys2Proof.Machine
end

section
/-! PROOFS. What the assembler admits and refuses (30_encoding.md R78, 41_encode.md R119). -/

namespace Sys2Proof.Machine

/-! ## Bracketed lists -/

section Lists

variable {items : List ListItem}

theorem withPayload_of_length_ne (h : (listBytes items).length ≠ 12) (f : Vector Byte 12 → Instr) :
    withPayload items f = .refused (.payloadLength (listBytes items).length) := by
  unfold withPayload
  split
  · next hbytes => exact absurd (congrArg List.length hbytes) h
  · rfl

theorem withPayload_of_toList {p : Vector Byte 12} (h : p.toList = listBytes items) (f : Vector Byte 12 → Instr) :
    withPayload items f = .instr (f p) := by
  rw [withPayload, ← h, vec12_toList]
  exact congrArg (fun p => Assembled.instr (f p)) (vec12_eta p)

theorem withRaw_of_length_ne (h : (listBytes items).length ≠ 10) (f : Vector Byte 10 → Instr) :
    withRaw items f = .refused (.rawLength (listBytes items).length) := by
  unfold withRaw
  split
  · next hbytes => exact absurd (congrArg List.length hbytes) h
  · rfl

theorem withRaw_of_toList {r : Vector Byte 10} (h : r.toList = listBytes items) (f : Vector Byte 10 → Instr) :
    withRaw items f = .instr (f r) := by
  rw [withRaw, ← h, vec10_toList]
  exact congrArg (fun r => Assembled.instr (f r)) (vec10_eta r)

/-- A list of `n` bytes is the list of a vector of `n`. -/
theorem exists_vector_toList {n : Nat} {bs : List Byte} (h : bs.length = n) : ∃ v : Vector Byte n, v.toList = bs :=
  ⟨⟨bs.toArray, h⟩, rfl⟩

/-- A payload list is refused for its length or admitted as the instruction over its bytes. -/
theorem withPayload_cases (items : List ListItem) (f : Vector Byte 12 → Instr) :
    ((listBytes items).length ≠ 12 ∧ withPayload items f = .refused (.payloadLength (listBytes items).length)) ∨
    ∃ p, withPayload items f = .instr (f p) := by
  by_cases h : (listBytes items).length = 12
  · obtain ⟨p, hp⟩ := exists_vector_toList h
    exact .inr ⟨p, withPayload_of_toList hp f⟩
  · exact .inl ⟨h, withPayload_of_length_ne h f⟩

theorem withRaw_cases (items : List ListItem) (f : Vector Byte 10 → Instr) :
    ((listBytes items).length ≠ 10 ∧ withRaw items f = .refused (.rawLength (listBytes items).length)) ∨
    ∃ r, withRaw items f = .instr (f r) := by
  by_cases h : (listBytes items).length = 10
  · obtain ⟨r, hr⟩ := exists_vector_toList h
    exact .inr ⟨r, withRaw_of_toList hr f⟩
  · exact .inl ⟨h, withRaw_of_length_ne h f⟩

end Lists

/-! ## Lines -/

theorem assemble_cmdSetPeriod_of_admitted {n : Int} (h : minutesAdmitted n) :
    assemble (.cmdSetPeriod n) = .instr (.cmdSetPeriod n) := if_pos h

theorem assemble_cmdSetPeriod_of_not_admitted {n : Int} (h : ¬ minutesAdmitted n) :
    assemble (.cmdSetPeriod n) = .refused (.minutesRange n) := if_neg h

theorem not_minutesAdmitted_iff {n : Int} : ¬ minutesAdmitted n ↔ n < 0 ∨ n > 30 := by
  rw [minutesAdmitted, Classical.not_and_iff_not_or_not, Int.not_le, Int.not_le]

/-- Everything `assemble` can answer: one of three refusals, each of its own kind of wrong line, or a well-formed instruction. -/
theorem assemble_cases (l : AsmLine) :
    (∃ o items a b, (l = .enc o items a b ∨ l = .encb o items ∨ l = .cmdSetId items) ∧ (listBytes items).length ≠ 12 ∧
      assemble l = .refused (.payloadLength (listBytes items).length)) ∨
    (∃ items, l = .dec items ∧ (listBytes items).length ≠ 10 ∧
      assemble l = .refused (.rawLength (listBytes items).length)) ∨
    (∃ n, l = .cmdSetPeriod n ∧ ¬ minutesAdmitted n ∧ assemble l = .refused (.minutesRange n)) ∨
    ∃ i, assemble l = .instr i ∧ i.wellFormed = true := by
  cases l with
  | enc o items a b =>
    rcases withPayload_cases items (.enc o · a b) with ⟨hlen, h⟩ | ⟨p, h⟩
    · exact .inl ⟨o, items, a, b, .inl rfl, hlen, h⟩
    · exact .inr (.inr (.inr ⟨_, h, rfl⟩))
  | encb o items =>
    rcases withPayload_cases items (.encb o) with ⟨hlen, h⟩ | ⟨p, h⟩
    · exact .inl ⟨o, items, 0, 0, .inr (.inl rfl), hlen, h⟩
    · exact .inr (.inr (.inr ⟨_, h, rfl⟩))
  | cmdSetId items =>
    rcases withPayload_cases items .cmdSetId with ⟨hlen, h⟩ | ⟨p, h⟩
    · exact .inl ⟨0, items, 0, 0, .inr (.inr rfl), hlen, h⟩
    · exact .inr (.inr (.inr ⟨_, h, rfl⟩))
  | dec items =>
    rcases withRaw_cases items .dec with ⟨hlen, h⟩ | ⟨r, h⟩
    · exact .inr (.inl ⟨items, rfl, hlen, h⟩)
    · exact .inr (.inr (.inr ⟨_, h, rfl⟩))
  | cmdSetPeriod n =>
    by_cases hn : minutesAdmitted n
    · exact .inr (.inr (.inr ⟨_, assemble_cmdSetPeriod_of_admitted hn, decide_eq_true hn⟩))
    · exact .inr (.inr (.inl ⟨n, rfl, hn, assemble_cmdSetPeriod_of_not_admitted hn⟩))
  | _ => exact .inr (.inr (.inr ⟨_, rfl, rfl⟩))

theorem assemble_refused {l : AsmLine} {e : AsmError} (h : assemble l = .refused e) :
    (∃ o items a b, (l = .enc o items a b ∨ l = .encb o items ∨ l = .cmdSetId items) ∧ (listBytes items).length ≠ 12 ∧
      e = .payloadLength (listBytes items).length) ∨
    (∃ items, l = .dec items ∧ (listBytes items).length ≠ 10 ∧ e = .rawLength (listBytes items).length) ∨
    (∃ n, l = .cmdSetPeriod n ∧ (n < 0 ∨ n > 30) ∧ e = .minutesRange n) := by
  rcases assemble_cases l with ⟨o, items, a, b, hl, hlen, hr⟩ | ⟨items, hl, hlen, hr⟩ | ⟨n, hl, hn, hr⟩ | ⟨i, hi, -⟩
  · exact .inl ⟨o, items, a, b, hl, hlen, Assembled.refused.inj (h.symm.trans hr)⟩
  · exact .inr (.inl ⟨items, hl, hlen, Assembled.refused.inj (h.symm.trans hr)⟩)
  · exact .inr (.inr ⟨n, hl, not_minutesAdmitted_iff.mp hn, Assembled.refused.inj (h.symm.trans hr)⟩)
  · cases h.symm.trans hi

theorem assemble_wellFormed {l : AsmLine} {i : Instr} (h : assemble l = .instr i) : i.wellFormed = true := by
  rcases assemble_cases l with ⟨o, items, a, b, -, -, hr⟩ | ⟨items, -, -, hr⟩ | ⟨n, -, -, hr⟩ | ⟨j, hj, hwf⟩
  · cases h.symm.trans hr
  · cases h.symm.trans hr
  · cases h.symm.trans hr
  · obtain rfl := Assembled.instr.inj (h.symm.trans hj)
    exact hwf

/-- Settles O52: lists by their length, minutes by their range, and the refusals from `assemble_cases`. -/
theorem assemblerRefusesExactlyTheWrongLines : Obligations.AssemblerRefusesExactlyTheWrongLines := by
  refine ⟨?payloadRefused, ?rawRefused, ?payloadAdmitted, ?rawAdmitted, ?minutesRefused, ?minutesAdmitted, ?plain,
    fun l e h => assemble_refused h, fun l i h => assemble_wellFormed h⟩
  case payloadRefused =>
    exact fun o items a b h => ⟨withPayload_of_length_ne h (.enc o · a b), withPayload_of_length_ne h (.encb o),
      withPayload_of_length_ne h .cmdSetId⟩
  case rawRefused => exact fun items h => withRaw_of_length_ne h .dec
  case payloadAdmitted =>
    intro o items a b h
    obtain ⟨p, hp⟩ := exists_vector_toList h
    exact ⟨p, hp, withPayload_of_toList hp (.enc o · a b), withPayload_of_toList hp (.encb o),
      withPayload_of_toList hp .cmdSetId⟩
  case rawAdmitted =>
    intro items h
    obtain ⟨r, hr⟩ := exists_vector_toList h
    exact ⟨r, hr, withRaw_of_toList hr .dec⟩
  case minutesRefused =>
    exact fun n h => assemble_cmdSetPeriod_of_not_admitted (not_minutesAdmitted_iff.mpr h)
  case minutesAdmitted => exact fun n hlo hhi => assemble_cmdSetPeriod_of_admitted ⟨hlo, hhi⟩
  case plain => decide

end Sys2Proof.Machine
end

section
/-! PROOFS. The checksum: the exact total modulo 256 and its laws (40_checksum.md R90, R94), and what it covers in a command
frame and in a response frame (R91 to R93, R95). -/

namespace Sys2Proof.Machine

/-! ## The total and the sum of bytes -/

theorem csum_toNat (bs : List Byte) : (csum bs).toNat = byteTotal bs % 256 := by
  rw [csum_eq_ofNat, BitVec.toNat_ofNat]

theorem byteTotal_le (bs : List Byte) : byteTotal bs ≤ bs.length * 255 := by
  induction bs with
  | nil => exact Nat.le_refl 0
  | cons b bs ih =>
    have hb : b.toNat < 256 := b.isLt
    rw [byteTotal_cons, List.length_cons]
    omega

/-- CSUM is the sum of the bytes as 8-bit words, whose addition wraps. -/
theorem csum_eq_sum (bs : List Byte) : csum bs = bs.sum := by
  induction bs with
  | nil => rfl
  | cons b bs ih => rw [csum_cons, ih, List.sum_cons]

theorem csum_eq_zero_of_forall {bs : List Byte} (h : ∀ b ∈ bs, b = 0) : csum bs = 0 := by
  induction bs with
  | nil => rfl
  | cons b bs ih =>
    obtain ⟨hb, hbs⟩ := List.forall_mem_cons.mp h
    rw [csum_cons, hb, ih hbs]
    rfl

/-- Settles O12: the exact total decides CSUM, and each byte adds at most 255 to it. -/
theorem checksumIsTheTotalModulo256 : Obligations.ChecksumIsTheTotalModulo256 := by
  refine ⟨csum_toNat, ?zeros, ?total256, ?bound, by decide, by decide, by decide⟩
  case zeros => exact fun bs h => csum_eq_zero_of_forall h
  case total256 =>
    intro bs (h : byteTotal bs = 256)
    rw [csum_eq_ofNat, h]
    rfl
  case bound =>
    intro bs hlen
    change byteTotal bs ≤ 3825 ∧ byteTotal bs < 2 ^ 12
    have hle := byteTotal_le bs
    omega

/-! ## The laws -/

theorem csum_perm {bs cs : List Byte} (h : bs.Perm cs) : csum bs = csum cs := by
  have htotal : byteTotal bs = byteTotal cs := (h.map BitVec.toNat).sum_nat
  rw [csum_eq_ofNat, csum_eq_ofNat, htotal]

theorem csum_eq_csumFold (bs : List Byte) : csum bs = csumFold bs :=
  (csum_eq_sum bs).trans List.sum_eq_foldl

/-- Two lists that differ in one byte have one checksum exactly when they are equal there. -/
theorem csum_replace_inj {xs ys : List Byte} {b b' : Byte} : csum (xs ++ b' :: ys) = csum (xs ++ b :: ys) ↔ b' = b := by
  rw [csum_append, csum_append, csum_cons, csum_cons, BitVec.add_right_inj, BitVec.add_left_inj]

/-- Settles O13: each law is one of wrapping addition, which CSUM sums with. -/
theorem checksumLaws : Obligations.ChecksumLaws := by
  refine ⟨fun bs cs h => csum_perm h, csum_eq_csumFold, ?zero, ?replace, ?cancel⟩
  case zero =>
    intro bs
    rw [csum_append]
    exact BitVec.add_zero (csum bs)
  case replace => exact fun xs ys b b' => (not_congr csum_replace_inj).trans ne_comm
  case cancel =>
    intro xs ys zs b c d
    simp only [csum_append, csum_cons]
    grind

/-! ## What it covers -/

/-- Settles O14: an ENC under any name latches a command frame, whose checksum byte is computed over its body. -/
theorem commandChecksumCoversTheBody : Obligations.CommandChecksumCoversTheBody := by
  refine ⟨?everyName, fun o p a b s => ⟨_, encodeCommand_eq o p a b s, rfl⟩,
    fun s => ⟨_, encodeCommand_eq _ _ _ _ s, ?sample⟩⟩
  case everyName =>
    intro i s t hi h
    obtain ⟨o, p, a, b, hx⟩ := Instr.expand_of_isEncode hi
    rw [eq_latchFrame_of_exec hx h]
    rfl
  case sample =>
    rw [State.latchFrame_txf]
    decide

/-- The status is ERR_CHECKSUM exactly for a framed operand with another checksum byte (R132, R134). -/
theorem verdict_status_eq_errChecksum_iff (raw : Vector Byte 10) :
    (verdict raw).1 = Config.rxstErrChecksum ↔ framed raw = true ∧ checksumMatches raw = false := by
  rcases verdict_cases raw with ⟨hf, hv⟩ | ⟨hf, hc, hv⟩ | ⟨hf, hc, -, hv⟩ | ⟨hf, hc, -, hv⟩ | ⟨hf, hc, -, -, hv⟩ <;>
    simp [*]

/-- Settles O15: the checksum is computed over the payload alone, and the verdict's checks come in the order markers,
checksum, type. -/
theorem responseChecksumCoversThePayload : Obligations.ResponseChecksumCoversThePayload := by
  intro h ty e c b s
  have hframed := framed_iff #v[h, ty, b[0], b[1], b[2], b[3], b[4], b[5], c, e]
  have hmatch := checksumMatches_iff #v[h, ty, b[0], b[1], b[2], b[3], b[4], b[5], c, e]
  refine ⟨_, exec_dec _ s, rfl, ?checksum, ?marker, ?type⟩
  case checksum =>
    exact fun hh he => (verdict_status_eq_errChecksum_iff _).trans
      ((and_iff_right (hframed.mpr ⟨hh, he⟩)).trans checksumMatches_eq_false_iff)
  case marker =>
    intro hm
    refine congrArg Prod.fst (verdict_of_not_framed (framed_eq_false_iff.mpr ?_))
    exact hm
  case type =>
    intro hh he hsum
    have hf := hframed.mpr ⟨hh, he⟩
    have hc := hmatch.mpr hsum
    refine ⟨fun hd => ?_, fun hs => ?_, fun hd hs => ?_⟩
    · have hv := verdict_of_data hf hc hd
      exact ⟨congrArg Prod.fst hv, congrArg Prod.snd hv⟩
    · have hv := verdict_of_setting hf hc hs
      exact ⟨congrArg Prod.fst hv, congrArg Prod.snd hv⟩
    · exact congrArg Prod.fst (verdict_of_unknownType hf hc hd hs)

end Sys2Proof.Machine
end

section
/-! PROOFS. What an ENC leaves in the encoder registers under every name: ENC, ENCB and the command builders (41_encode.md
R100 to R105, R110 to R119). -/

namespace Sys2Proof.Machine

/-! ## The frame, by its checksum byte -/

/-- The body of a command frame is the operands in order (R65). -/
theorem commandBody_eq_append (o : Byte) (p : Vector Byte 12) (a b : Byte) :
    commandBody o p a b = [o] ++ p.toList ++ [a, b] := by
  rw [vec12_toList]
  rfl

/-- The two default address bytes add 510, which is 0xFE modulo 256 (R102). -/
theorem commandChecksum_defaultAddr (o : Byte) (p : Vector Byte 12) :
    commandChecksum o p Config.defaultAddr Config.defaultAddr =
      BitVec.ofNat 8 ((o.toNat + byteTotal p.toList + 0xFE) % 256) := by
  have htotal : byteTotal (commandBody o p Config.defaultAddr Config.defaultAddr) =
      o.toNat + byteTotal p.toList + 510 := by
    rw [commandBody_eq_append, byteTotal_append, byteTotal_append, byteTotal_cons]
    rfl
  rw [commandChecksum, csum, htotal]
  congr 1
  omega

/-- CMD_SET_PERIOD's other body bytes add up to 0x07 modulo 256 (R119). -/
theorem commandChecksum_setPeriod {n : Nat} (h : n ≤ 30) :
    commandChecksum Config.opPeriod (settingPayload Config.subWrite (BitVec.ofNat 8 n)) Config.defaultAddr
      Config.defaultAddr = BitVec.ofNat 8 ((0x07 + n) % 256) := by
  have htotal : byteTotal (settingPayload Config.subWrite (BitVec.ofNat 8 n)).toList = 1 + n := by
    simp [settingPayload]
    omega
  rw [commandChecksum_defaultAddr, htotal]
  change BitVec.ofNat 8 ((8 + (1 + n) + 254) % 256) = _
  congr 1
  omega

section Effect

variable (i : Instr) {o : Byte} {p : Vector Byte 12} {a b c : Byte}

/-- A well-formed name of an ENC writes the frame of the ENC's operands and sets TXV, and writes nothing else (R100). -/
theorem exec_encode_of_checksum (hi : i.wellFormed = true) (hx : i.expand = .enc o p a b)
    (hc : commandChecksum o p a b = c) (s : State) :
    exec i s = .next { s with
      txf := #v[0xAA, 0xB4, o, p[0], p[1], p[2], p[3], p[4], p[5], p[6], p[7], p[8], p[9], p[10], p[11], a, b, c, 0xAB]
      txv := true } := by
  subst hc
  exact exec_of_expand_enc hi hx s

/-- A well-formed name of an ENC with the default addresses does what the ENCB of its opId and payload does (R102). -/
theorem exec_eq_exec_encb (hi : i.wellFormed = true) (hx : i.expand = .enc o p Config.defaultAddr Config.defaultAddr)
    (s : State) : exec i s = exec (.encb o p) s :=
  exec_eq_of_expand_eq (i := .encb o p) rfl hi hx s

end Effect

/-! ## ENC and ENCB -/

/-- A list of single bytes spells those bytes. -/
theorem listBytes_map_byte (bs : List Byte) : listBytes (bs.map .byte) = bs := by
  rw [listBytes, List.flatMap_map, List.flatMap_singleton']

/-- A payload written byte by byte is that payload to the assembler. -/
theorem withPayload_map_byte (p : Vector Byte 12) (f : Vector Byte 12 → Instr) :
    withPayload (p.toList.map .byte) f = .instr (f p) :=
  withPayload_of_toList (listBytes_map_byte p.toList).symm f

theorem encDescriptor_eq_append (o : Byte) (p : Vector Byte 12) (a b : Byte) :
    encDescriptor o p a b = [0x01, o] ++ p.toList ++ [a, b] := by
  rw [vec12_toList]
  rfl

/-- Settles O16: ENC is its own expansion, and its descriptor decodes to a name of it. -/
theorem encWritesTheCommandFrame : Obligations.EncWritesTheCommandFrame := by
  refine ⟨fun o p a b s => exec_encode_of_checksum (.enc o p a b) rfl rfl rfl s, ?descriptor, ?line, by decide, by decide,
    fun s => exec_encode_of_checksum (.enc 0x04 zeroPayload 0x12 0x34) rfl rfl (by decide) s⟩
  case descriptor =>
    intro o p a b
    rw [← encDescriptor_eq_append]
    exact ⟨_, decode_encode (.enc o p a b), fun s => (namesDoNotChangeTheEffect (.enc o p a b) s rfl).2⟩
  case line => exact fun o p a b => withPayload_map_byte p (.enc o · a b)

/-- Settles O17: an ENC under any name latches a command frame, which has these constants. -/
theorem encConstantsAreFixed : Obligations.EncConstantsAreFixed := by
  intro i s t hi h
  obtain ⟨o, p, a, b, hx⟩ := Instr.expand_of_isEncode hi
  obtain rfl := eq_latchFrame_of_exec hx h
  exact ⟨rfl, rfl, rfl⟩

/-- Settles O18: what does not reach the encoder leaves TXV, and what does is an ENC or the excluded reset. -/
theorem txvStaysUntilReset : Obligations.TxvStaysUntilReset := by
  refine ⟨?encode, ?step, ?operands⟩
  case encode =>
    intro i s t hi h
    obtain ⟨o, p, a, b, hx⟩ := Instr.expand_of_isEncode hi
    obtain rfl := eq_latchFrame_of_exec hx h
    rfl
  case step =>
    intro s t htxv hnoReset h
    cases hr : s.request.reachesEncoder with
    | false =>
      obtain ⟨-, hv⟩ := State.encoderSide_eq_iff.mp (encoderSide_of_step h hr)
      exact hv.trans htxv
    | true =>
      rcases serve_reachesEncoder h hr with ⟨o, p, a, b, -, hv, -⟩ | ⟨hreset, -⟩
      · exact hv
      · exact absurd hreset hnoReset
  case operands =>
    intro i s s' t t' hi h h'
    obtain ⟨o, p, a, b, hx⟩ := Instr.expand_of_isEncode hi
    obtain rfl := eq_latchFrame_of_exec hx h
    obtain rfl := eq_latchFrame_of_exec hx h'
    rfl

/-- Settles O19: the latched frame carries the payload from index 3 on. -/
theorem encCopiesThePayload : Obligations.EncCopiesThePayload :=
  fun o p a b s => ⟨_, encodeCommand_eq o p a b s, fun _ h => commandFrame_payload o p a b h⟩

/-- The enumerated operation ids (R66). -/
theorem opidKnown_iff (o : Byte) :
    Config.opidKnown o = true ↔ o = 0x02 ∨ o = 0x04 ∨ o = 0x05 ∨ o = 0x06 ∨ o = 0x08 := by
  simp [Config.opidKnown, or_assoc]

/-- A known operation id is encoded under either value of ENC_REFUSE_UNKNOWN_OPID. -/
theorem encodeCommandWith_true_of_known {o : Byte} (h : Config.opidKnown o = true) (p : Vector Byte 12) (a b : Byte)
    (s : State) : encodeCommandWith true o p a b s = .next (s.latchFrame (commandFrame o p a b)) := by
  simp [encodeCommandWith, h]

/-- Settles O20: ENC looks at no operation id; the parameter's other value refuses exactly the unknown ones. -/
theorem unknownOpidIsEncoded : Obligations.UnknownOpidIsEncoded := by
  refine ⟨?unknown, ?known, fun s => exec_encode_of_checksum (.encb 0x03 zeroPayload) rfl rfl (by decide) s⟩
  case unknown =>
    intro o p a b s h2 h4 h5 h6 h8
    have hunknown : Config.opidKnown o = false := by
      rw [Bool.eq_false_iff, ne_eq, opidKnown_iff, not_or, not_or, not_or, not_or]
      exact ⟨h2, h4, h5, h6, h8⟩
    exact ⟨encodeCommand_eq o p a b s, encodeCommandWith_true_of_unknown hunknown p a b s⟩
  case known => exact fun o p a b s h => encodeCommandWith_true_of_known ((opidKnown_iff o).mpr h) p a b s

/-- Settles O21: ENCB expands to the ENC with the default addresses, and shares its words. -/
theorem encbUsesTheDefaultAddresses : Obligations.EncbUsesTheDefaultAddresses :=
  ⟨fun _ _ _ => rfl, fun o p s => exec_encode_of_checksum (.encb o p) rfl rfl (commandChecksum_defaultAddr o p) s,
    fun _ _ => rfl, fun o p => withPayload_map_byte p (.encb o),
    fun s => exec_encode_of_checksum (.encb 0x04 zeroPayload) rfl rfl (by decide) s⟩

/-! ## The builders -/

/-- Settles O23: each expansion is an ENCB, and the checksum of its fixed operands is computed. -/
theorem reportingModeBuilders : Obligations.ReportingModeBuilders := fun s =>
  ⟨exec_eq_exec_encb .cmdGetMode rfl rfl s, exec_encode_of_checksum .cmdGetMode rfl rfl (by decide) s,
    exec_eq_exec_encb .cmdSetModeActive rfl rfl s, exec_encode_of_checksum .cmdSetModeActive rfl rfl (by decide) s,
    exec_eq_exec_encb .cmdSetModeQuery rfl rfl s, exec_encode_of_checksum .cmdSetModeQuery rfl rfl (by decide) s⟩

/-- Settles O24: as the other builders; CMD_SET_ID's checksum is over its operand between the opId and the addresses. -/
theorem queryAndSetIdBuilders : Obligations.QueryAndSetIdBuilders :=
  ⟨fun s => ⟨exec_eq_exec_encb .cmdQuery rfl rfl s, exec_encode_of_checksum .cmdQuery rfl rfl (by decide) s⟩,
    fun p s => ⟨exec_eq_exec_encb (.cmdSetId p) rfl rfl s,
      exec_encode_of_checksum (.cmdSetId p) rfl rfl (congrArg csum (commandBody_eq_append _ p _ _)) s⟩,
    fun s => exec_encode_of_checksum (.cmdSetId #v[0, 0, 0, 0, 0, 0, 0, 0, 0, 0, 0xA0, 0x01]) rfl rfl (by decide) s⟩

/-- Settles O25: each expansion is an ENCB, and the checksum of its fixed operands is computed. -/
theorem sleepSettingBuilders : Obligations.SleepSettingBuilders := fun s =>
  ⟨exec_eq_exec_encb .cmdGetSleep rfl rfl s, exec_encode_of_checksum .cmdGetSleep rfl rfl (by decide) s,
    exec_eq_exec_encb .cmdSleep rfl rfl s, exec_encode_of_checksum .cmdSleep rfl rfl (by decide) s,
    exec_eq_exec_encb .cmdWork rfl rfl s, exec_encode_of_checksum .cmdWork rfl rfl (by decide) s⟩

theorem cmdSetPeriod_natCast_expand (n : Nat) :
    (Instr.cmdSetPeriod n).expand = .enc Config.opPeriod (settingPayload Config.subWrite (BitVec.ofNat 8 n))
      Config.defaultAddr Config.defaultAddr := by
  rw [Instr.expand, minutesByte, BitVec.ofInt_natCast]

theorem exec_cmdSetPeriod_of_not_admitted {n : Int} (h : ¬ minutesAdmitted n) (s : State) :
    exec (.cmdSetPeriod n) s = .refused (.minutesOutOfRange n) := if_neg h

/-- The host's clamp gives minutes the assembler admits (R119, R181). -/
theorem minutesAdmitted_clampMinutes (n : Int) : minutesAdmitted (clampMinutes n).1 := by
  unfold clampMinutes
  split
  · decide
  · split
    · decide
    · next hlo hhi => exact ⟨Int.not_lt.mp hlo, Int.not_lt.mp hhi⟩

/-- Settles O26: the minutes from 0 to 30 are the admitted ones, and there the builder is the ENCB it expands to. -/
theorem workPeriodBuilders : Obligations.WorkPeriodBuilders := by
  refine ⟨?getPeriod, ?setPeriod, ?outOfRange, ?clamped, fun v s => ⟨_, encodeCommand_eq _ _ _ _ s, rfl⟩⟩
  case getPeriod =>
    exact fun s => ⟨exec_eq_exec_encb .cmdGetPeriod rfl rfl s, exec_encode_of_checksum .cmdGetPeriod rfl rfl (by decide) s⟩
  case setPeriod =>
    intro n s hn
    have hadmitted : minutesAdmitted n := ⟨Int.natCast_nonneg n, Int.ofNat_le.mpr hn⟩
    have hwf : (Instr.cmdSetPeriod n).wellFormed = true := decide_eq_true hadmitted
    have hx := cmdSetPeriod_natCast_expand n
    exact ⟨exec_eq_exec_encb (.cmdSetPeriod n) hwf hx s,
      exec_encode_of_checksum (.cmdSetPeriod n) hwf hx (commandChecksum_setPeriod hn) s,
      assemble_cmdSetPeriod_of_admitted hadmitted⟩
  case outOfRange =>
    intro n h
    have hrefused := not_minutesAdmitted_iff.mpr h
    exact ⟨assemble_cmdSetPeriod_of_not_admitted hrefused, exec_cmdSetPeriod_of_not_admitted hrefused⟩
  case clamped => exact fun n => assemble_cmdSetPeriod_of_admitted (minutesAdmitted_clampMinutes n)

end Sys2Proof.Machine
end

section
/-! PROOFS. The verdict of a DEC as a whole, what it leaves in every decoder register, and the Reading a host takes from them
(42_decode.md R130 to R134, R139, R140); NOP (R150). -/

namespace Sys2Proof.Machine

/-! ## The verdict -/

section Verdict

variable (raw : Vector Byte 10)

/-- The verdict by its checks on the operand's bytes, in R130's order. -/
theorem verdict_eq : verdict raw =
    if raw[0] = Config.hdr ∧ raw[9] = Config.tail then
      if raw[8] = responseChecksum raw then
        if raw[1] = Config.tagData then (Config.rxstOk, Config.rxtagData)
        else if raw[1] = Config.tagSetting then (Config.rxstOk, Config.rxtagSetting)
        else (Config.rxstErrType, Config.rxtagNone)
      else (Config.rxstErrChecksum, Config.rxtagNone)
    else (Config.rxstErrFraming, Config.rxtagNone) := by
  simp only [verdict, Bool.not_eq_true', ← Bool.not_eq_true, ite_not, framed_iff, checksumMatches_iff, beq_iff_eq]

theorem verdict_status : (verdict raw).1 =
    if raw[0] = Config.hdr ∧ raw[9] = Config.tail then
      if raw[8] = responseChecksum raw then
        if raw[1] = Config.tagData then Config.rxstOk
        else if raw[1] = Config.tagSetting then Config.rxstOk
        else Config.rxstErrType
      else Config.rxstErrChecksum
    else Config.rxstErrFraming := by
  simp only [verdict_eq, apply_ite Prod.fst]

theorem verdict_tag : (verdict raw).2 =
    if raw[0] = Config.hdr ∧ raw[9] = Config.tail ∧ raw[8] = responseChecksum raw then
      if raw[1] = Config.tagData then Config.rxtagData
      else if raw[1] = Config.tagSetting then Config.rxtagSetting
      else Config.rxtagNone
    else Config.rxtagNone := by
  simp only [verdict_eq, apply_ite Prod.snd, ← and_assoc]
  by_cases hf : raw[0] = Config.hdr ∧ raw[9] = Config.tail
  · simp only [if_pos hf, and_iff_right hf]
  · rw [if_neg hf, if_neg fun h => hf h.1]

/-- The status is ERR_FRAMING exactly for an operand without both markers (R131, R134). -/
theorem verdict_status_eq_errFraming_iff : (verdict raw).1 = Config.rxstErrFraming ↔ framed raw = false := by
  rcases verdict_cases raw with ⟨hf, hv⟩ | ⟨hf, -, hv⟩ | ⟨hf, -, -, hv⟩ | ⟨hf, -, -, hv⟩ | ⟨hf, -, -, -, hv⟩ <;>
    simp [hf, hv]

/-- RDV is 1 exactly for a DATA frame that passes every check (R138). -/
theorem readingValid_verdict_iff : readingValid (verdict raw).1 (verdict raw).2 = true ↔
    framed raw = true ∧ checksumMatches raw = true ∧ raw[1] = Config.tagData := by
  rw [readingValid_iff]
  rcases verdict_cases raw with ⟨hf, hv⟩ | ⟨-, hc, hv⟩ | ⟨hf, hc, ht, hv⟩ | ⟨-, -, ht, hv⟩ | ⟨-, -, hd, -, hv⟩
  · simp [hf, hv]
  · simp [hc, hv]
  · simp [hf, hc, ht, hv]
  · simp [ht, hv]
  · simpa [hv] using fun _ _ => hd

end Verdict

/-- A result other than OK is untagged and no Reading (R133, R138). -/
theorem latchResponse_of_status_ne_ok {raw : Vector Byte 10} {st : Status} (hst : (verdict raw).1 = st)
    (hne : st ≠ Config.rxstOk) (s : State) :
    (s.latchResponse raw).rxtag = Config.rxtagNone ∧ (s.latchResponse raw).rdv = false := by
  subst hst
  obtain ⟨⟨-, hlegal⟩, htag⟩ := latchResponse_codesLegal_and_tagFollowsStatus s raw
  exact ⟨hlegal.resolve_right fun htagged => hne (htag.mp htagged),
    Bool.eq_false_iff.mpr fun hrdv => hne ((latchResponse_readingFlagRight s raw).mp hrdv).1⟩

/-! ## DEC -/

theorem decDescriptor_eq_cons (raw : Vector Byte 10) : decDescriptor raw = 0x02 :: raw.toList := by
  rw [vec10_toList]
  rfl

/-- Settles O27: each register of `latchResponse` by its own lemma; the descriptor and the line are the DEC's own. -/
theorem decWritesEveryDecoderRegister : Obligations.DecWritesEveryDecoderRegister := by
  refine ⟨?registers, ?descriptor, ?line, ?sample, ?unknownType, ?zeros, ?mismatch⟩
  case registers =>
    intro raw s
    have hrdv : readingValid (verdict raw).1 (verdict raw).2 = decide (raw[0] = Config.hdr ∧ raw[9] = Config.tail ∧
        raw[8] = responseChecksum raw ∧ raw[1] = Config.tagData) := by
      rw [Bool.eq_iff_iff, decide_eq_true_iff, readingValid_verdict_iff, framed_iff, checksumMatches_iff, and_assoc]
    have hpm25 : rawPm25 raw = raw[3] ++ raw[2] := composeLE_eq_append raw[2] raw[3]
    have hpm10 : rawPm10 raw = raw[5] ++ raw[4] := composeLE_eq_append raw[4] raw[5]
    have hdevid : rawDevid raw = raw[7] ++ raw[6] := composeLE_eq_append raw[6] raw[7]
    rw [exec_dec, State.latchResponse, hrdv, hpm25, hpm10, hdevid, verdict_status, verdict_tag]
    rfl
  case descriptor =>
    intro raw
    rw [← decDescriptor_eq_cons]
    exact ⟨_, decode_encode (.dec raw), fun s => (namesDoNotChangeTheEffect (.dec raw) s rfl).2⟩
  case line => exact fun raw => withRaw_of_toList (listBytes_map_byte raw.toList).symm .dec
  case sample => exact fun s => ⟨_, exec_dec _ s, rfl, rfl, rfl, rfl, rfl, rfl, rfl, rfl⟩
  case unknownType =>
    exact fun s => exec_dec_rxst (verdict_of_unknownType (by decide) (by decide) (by decide) (by decide)) s
  case zeros => exact fun s => exec_dec_rxst (verdict_of_not_framed (by decide)) s
  case mismatch => exact fun s => exec_dec_rxst (verdict_of_mismatch (by decide) (by decide)) s

/-- Settles O28: the status is ERR_FRAMING exactly where the marker check fails, and the other registers are the operand's. -/
theorem framingErrors : Obligations.FramingErrors := by
  intro raw s
  refine ⟨_, exec_dec raw s, (verdict_status_eq_errFraming_iff raw).trans framed_eq_false_iff, fun hst => ?_⟩
  obtain ⟨htag, hrdv⟩ := latchResponse_of_status_ne_ok hst (by decide) s
  exact ⟨htag, hrdv, rfl, rfl, rfl, rfl, composeLE_eq_append _ _, composeLE_eq_append _ _, composeLE_eq_append _ _⟩

/-- Settles O29: the status is ERR_CHECKSUM exactly where the markers are right and the checksum check fails. -/
theorem checksumErrors : Obligations.ChecksumErrors := by
  intro raw s
  refine ⟨_, exec_dec raw s, ?mismatch, fun hst => ?records⟩
  case mismatch =>
    exact (verdict_status_eq_errChecksum_iff raw).trans
      ((and_congr (framed_iff raw) checksumMatches_eq_false_iff).trans and_assoc)
  case records =>
    obtain ⟨htag, hrdv⟩ := latchResponse_of_status_ne_ok hst (by decide) s
    exact ⟨htag, hrdv, rfl, rfl⟩

/-- Settles O30: past the first two checks the type byte decides the verdict. -/
theorem typeClassification : Obligations.TypeClassification := by
  intro raw s
  refine ⟨_, exec_dec raw s, fun hhdr htail hsum => ?checked, fun hst => (latchResponse_of_status_ne_ok rfl hst s).1⟩
  case checked =>
    have hf := (framed_iff raw).mpr ⟨hhdr, htail⟩
    have hc := (checksumMatches_iff raw).mpr hsum
    refine ⟨fun hd => ?data, fun hs => ?setting, fun hd hs => ?unknown⟩
    case data =>
      have hv := verdict_of_data hf hc hd
      exact ⟨congrArg Prod.fst hv, congrArg Prod.snd hv⟩
    case setting =>
      have hv := verdict_of_setting hf hc hs
      exact ⟨congrArg Prod.fst hv, congrArg Prod.snd hv⟩
    case unknown =>
      have hst := congrArg Prod.fst (verdict_of_unknownType hf hc hd hs)
      obtain ⟨htag, hrdv⟩ := latchResponse_of_status_ne_ok hst (by decide) s
      exact ⟨hst, htag, hrdv, rfl⟩

/-- Settles O31: each branch of R134's order is a branch of the verdict's, OK being that of both known types. -/
theorem statusReportsTheFirstFailure : Obligations.StatusReportsTheFirstFailure := by
  intro raw s t h
  obtain rfl := eq_latchResponse_of_exec rfl h
  rw [State.latchResponse_rxst]
  by_cases hmarkers : raw[0] = Config.hdr ∧ raw[9] = Config.tail
  case neg =>
    rw [if_pos hmarkers]
    exact congrArg Prod.fst (verdict_of_not_framed (Bool.eq_false_iff.mpr (mt (framed_iff raw).mp hmarkers)))
  case pos =>
    have hf := (framed_iff raw).mpr hmarkers
    rw [if_neg (not_not_intro hmarkers)]
    split
    case isTrue hsum => exact congrArg Prod.fst (verdict_of_mismatch hf (checksumMatches_eq_false_iff.mpr hsum))
    case isFalse hsum =>
      have hc := (checksumMatches_iff raw).mpr (Classical.not_not.mp hsum)
      split
      case isTrue htype => exact congrArg Prod.fst (verdict_of_unknownType hf hc htype.1 htype.2)
      case isFalse htype =>
        by_cases hd : raw[1] = Config.tagData
        · exact congrArg Prod.fst (verdict_of_data hf hc hd)
        · have hs : raw[1] = Config.tagSetting := Classical.not_not.mp fun hs => htype ⟨hd, hs⟩
          exact congrArg Prod.fst (verdict_of_setting hf hc hs)

/-- Settles O36: a DEC under any name latches its operand's response, which reads no register. -/
theorem decDependsOnlyOnItsOperand : Obligations.DecDependsOnlyOnItsOperand := by
  intro i s s' t t' hi h h'
  obtain ⟨raw, hx⟩ := Instr.expand_of_isDecode hi
  obtain rfl := eq_latchResponse_of_exec hx h
  obtain rfl := eq_latchResponse_of_exec hx h'
  rfl

/-! ## The Reading -/

theorem reading_of_rdv {s : State} (h : s.rdv = true) :
    s.reading = some { pm25 := (s.pm25.toNat : Rat) / 10, pm10 := (s.pm10.toNat : Rat) / 10 } := if_pos h

theorem reading_of_not_rdv {s : State} (h : s.rdv = false) : s.reading = none :=
  if_neg (Bool.eq_false_iff.mp h)

/-- Settles O35: a rational divided by ten and multiplied by ten is itself; the canonical frame is R130's example. -/
theorem readingIsExactTenths : Obligations.ReadingIsExactTenths := by
  refine ⟨?exact, fun s h => reading_of_not_rdv h, ?canonical⟩
  case exact =>
    have hten : (10 : Rat) ≠ 0 := by decide
    exact fun s h => ⟨_, reading_of_rdv h, Rat.div_mul_cancel hten, Rat.div_mul_cancel hten⟩
  case canonical =>
    intro s
    obtain ⟨-, -, -, hsample, -⟩ := decWritesEveryDecoderRegister
    obtain ⟨t, ht, -, -, hpm25, hpm10, -, -, -, hrdv⟩ := hsample s
    refine ⟨t, ht, ?_⟩
    rw [reading_of_rdv hrdv, hpm25, hpm10]
    rfl

/-! ## NOP -/

/-- Settles O38: `execNop` answers its own state. -/
theorem nopWritesNothing : Obligations.NopWritesNothing := ⟨fun _ => rfl, rfl, rfl⟩

end Sys2Proof.Machine
end

section
/-! PROOFS. Which stops an instruction, an interaction and a step have, and that assembled lines run to the end
(60_exceptions.md R160, R164, R166; R192). -/

namespace Sys2Proof.Machine

/-! ## Instructions -/

theorem exec_ne_fault (i : Instr) (s : State) (f : Fault) : exec i s ≠ .fault f := by
  intro h
  have hstop : ∀ t, exec i s ≠ .next t := fun t ht => nomatch h.symm.trans ht
  obtain ⟨n, -, -, hrefused⟩ := exec_stops hstop
  cases h.symm.trans hrefused

/-- Settles O40: the one instruction that stops is CMD_SET_PERIOD out of its range, which is refused and not well formed. -/
theorem everyInstructionCompletes : Obligations.EveryInstructionCompletes :=
  ⟨fun _ s hi => exec_next_of_wellFormed hi s, exec_ne_fault⟩

/-! ## Descriptors -/

theorem orTruncated_ne_reserved (op op' : Byte) (x : Option (Instr × List Byte)) :
    orTruncated op x ≠ .rejected (.reserved op') := by
  cases x <;> simp [orTruncated]

/-- The decoder calls reserved only the first byte, and only a byte that R77 reserves. -/
theorem decode_eq_reserved {d : List Byte} {op : Byte} (h : decode d = .rejected (.reserved op)) :
    ∃ ops, d = op :: ops ∧ (opsel op = 3 ∨ mbz op ≠ 0) := by
  match d, h with
  | op' :: ops, h =>
    by_cases hres : opsel op' = 3 ∨ mbz op' ≠ 0
    · rw [decode_reserved hres] at h
      obtain rfl := DecodeError.reserved.inj (Decoded.rejected.inj h)
      exact ⟨ops, rfl, hres⟩
    · rcases (operationByte_iff op').mpr hres with rfl | rfl | rfl
      · cases (decode_opNop ops).symm.trans h
      · exact absurd ((decode_opEnc ops).symm.trans h) (orTruncated_ne_reserved _ _ _)
      · exact absurd ((decode_opDec ops).symm.trans h) (orTruncated_ne_reserved _ _ _)

/-- A presented descriptor runs its operation, spells no whole operation, or begins with a reserved byte. -/
theorem issue_cases (d : List Byte) (s : State) :
    (∃ t, issue d s = .next t) ∨
    (spellsOperation d = false ∧ issue d s = .refused (.malformedDescriptor d.length)) ∨
    (∃ op ops, d = op :: ops ∧ (opsel op = 3 ∨ mbz op ≠ 0) ∧ issue d s = .refused (.reservedOperation op)) := by
  cases hspells : spellsOperation d with
  | true => exact .inl ((admits_iff_serve_next s (.issue d)).mp hspells)
  | false =>
    cases hd : decode d with
    | instr i rest =>
      cases rest with
      | nil => exact absurd ((descriptorLengthIsExact d).mpr ⟨i, hd⟩) (by simp [hspells])
      | cons b bs => exact .inr (.inl ⟨rfl, by rw [issue, hd]⟩)
    | rejected e =>
      have hissue : issue d s = .refused (refusalOf d e) := by rw [issue, hd]
      cases e with
      | empty => exact .inr (.inl ⟨rfl, hissue⟩)
      | truncated op => exact .inr (.inl ⟨rfl, hissue⟩)
      | reserved op =>
        obtain ⟨ops, hcons, hres⟩ := decode_eq_reserved hd
        exact .inr (.inr ⟨op, ops, hcons, hres, hissue⟩)

/-! ## Interactions -/

theorem serve_fault {r : Request} {s : State} {f : Fault} (h : serve r s = .fault f) :
    ∃ x, r = .read x ∧ f = .unspecifiedRead x ∧ s.holdsValue x = false := by
  cases r with
  | issue d =>
    rcases issue_cases d s with ⟨t, ht⟩ | ⟨-, hq⟩ | ⟨op, ops, -, -, hq⟩
    · cases h.symm.trans ht
    · cases h.symm.trans hq
    · cases h.symm.trans hq
  | read x =>
    rcases readResult_cases x s with ⟨-, ht⟩ | ⟨hv, hf⟩
    · cases h.symm.trans ht
    · exact ⟨x, rfl, Host.Outcome.fault.inj (h.symm.trans hf), hv⟩
  | reset => cases h
  | concurrent => cases h
  | resetDuring => cases h

theorem serve_refused {r : Request} {s : State} {q : Refusal} (h : serve r s = .refused q) :
    (∃ op ops, r = .issue (op :: ops) ∧ q = .reservedOperation op ∧ (opsel op = 3 ∨ mbz op ≠ 0)) ∨
    (∃ d, r = .issue d ∧ q = .malformedDescriptor d.length ∧ spellsOperation d = false) ∨
    (∃ d₁ d₂, r = .concurrent d₁ d₂ ∧ q = .concurrentIssue) ∨
    (∃ d, r = .resetDuring d ∧ q = .resetDuringOperation) := by
  cases r with
  | issue d =>
    rcases issue_cases d s with ⟨t, ht⟩ | ⟨hspells, hq⟩ | ⟨op, ops, rfl, hres, hq⟩
    · cases h.symm.trans ht
    · exact .inr (.inl ⟨d, rfl, Host.Outcome.refused.inj (h.symm.trans hq), hspells⟩)
    · exact .inl ⟨op, ops, rfl, Host.Outcome.refused.inj (h.symm.trans hq), hres⟩
  | read x =>
    rcases readResult_cases x s with ⟨-, ht⟩ | ⟨-, hf⟩
    · cases h.symm.trans ht
    · cases h.symm.trans hf
  | reset => cases h
  | concurrent d₁ d₂ => exact .inr (.inr (.inl ⟨d₁, d₂, rfl, (Host.Outcome.refused.inj h).symm⟩))
  | resetDuring d => exact .inr (.inr (.inr ⟨d, rfl, (Host.Outcome.refused.inj h).symm⟩))

/-! ## Steps -/

/-- A step that stops was serving a pending interaction: the idle NOP completes (R150). -/
theorem pending_of_step_stops {s : State} (h : ∀ t, step s ≠ .next t) :
    ∃ r rest, s.inbox = r :: rest ∧ step s = serve r s.consume := by
  cases hs : s.inbox with
  | nil => exact absurd (step_of_inbox_nil hs) (h s)
  | cons r rest => exact ⟨r, rest, rfl, by rw [step, State.request, hs, List.headD_cons]⟩

/-- Settles O46: a step stops as its interaction does once that is taken from the port. -/
theorem onlyTheseStops : Obligations.OnlyTheseStops := by
  refine ⟨fun s f h => ?fault, fun s q h => ?refused⟩
  case fault =>
    obtain ⟨r, rest, hs, hserve⟩ := pending_of_step_stops fun t ht => nomatch h.symm.trans ht
    obtain ⟨x, rfl, rfl, hv⟩ := serve_fault (hserve.symm.trans h)
    exact ⟨x, rest, hs, rfl, (holdsValue_consume s x).symm.trans hv⟩
  case refused =>
    obtain ⟨r, rest, hs, hserve⟩ := pending_of_step_stops fun t ht => nomatch h.symm.trans ht
    rcases serve_refused (hserve.symm.trans h) with
      ⟨op, ops, rfl, hq, hres⟩ | ⟨d, rfl, hq, hspells⟩ | ⟨d₁, d₂, rfl, hq⟩ | ⟨d, rfl, hq⟩
    · exact .inl ⟨op, ops, rest, hs, hq, hres⟩
    · exact .inr (.inl ⟨d, rest, hs, hq, hspells⟩)
    · exact .inr (.inr (.inl ⟨d₁, d₂, rest, hs, hq⟩))
    · exact .inr (.inr (.inr ⟨d, rest, hs, hq⟩))

/-! ## Assembled programs -/

/-- The words of an admitted instruction do what the instruction does. -/
theorem issue_encode {i : Instr} (hi : i.wellFormed = true) (s : State) : issue (encode i) s = exec i s :=
  (issue_of_decode (decode_encode i) s).trans (namesDoNotChangeTheEffect i s hi).2

/-- An assembled program is one operation for each line, of an instruction the assembler admits. -/
theorem assembleProgram_eq_some {ls : List AsmLine} {rs : List Request} (h : assembleProgram ls = some rs) :
    rs.length = ls.length ∧ ∀ r ∈ rs, ∃ i : Instr, i.wellFormed = true ∧ r = .issue (encode i) := by
  induction ls generalizing rs with
  | nil =>
    obtain rfl := Option.some.inj h
    exact ⟨rfl, fun _ hr => nomatch hr⟩
  | cons l ls ih =>
    rw [assembleProgram] at h
    split at h
    · next i rs' hl hls =>
      obtain rfl := Option.some.inj h
      obtain ⟨hlen, hissues⟩ := ih hls
      exact ⟨congrArg Nat.succ hlen, List.forall_mem_cons.mpr ⟨⟨i, assemble_wellFormed hl, rfl⟩, hissues⟩⟩
    · cases h

/-- A run over interactions that complete in every state reaches its end, with none pending. -/
theorem runOver_completes {rs : List Request} (hrs : ∀ r ∈ rs, ∀ s, ∃ t, serve r s = .next t) (s : State) :
    ∃ t, runOver rs s = .next t ∧ t.inbox = [] := by
  induction rs generalizing s with
  | nil => exact ⟨_, runOver_nil s, s.withInbox_inbox []⟩
  | cons r rs ih =>
    obtain ⟨hr, hrs⟩ := List.forall_mem_cons.mp hrs
    obtain ⟨u, hu⟩ := hr (s.withInbox rs)
    obtain ⟨t, hrun, hpending⟩ := ih hrs u
    exact ⟨t, runOver_cons_next.mpr ⟨u, hu, hrun⟩, hpending⟩

/-- Settles O53: each line's operation completes in every state, as its instruction does. -/
theorem assembledLinesRunToTheEnd : Obligations.AssembledLinesRunToTheEnd := by
  intro ls rs s h
  obtain ⟨hlen, hissues⟩ := assembleProgram_eq_some h
  refine ⟨hlen, runOver_completes (fun r hr u => ?_) s⟩
  obtain ⟨i, hi, rfl⟩ := hissues r hr
  rw [serve, issue_encode hi]
  exact exec_next_of_wellFormed hi u

end Sys2Proof.Machine
end

section
/-! PROOFS. The host's view of the registers: mapped statuses, replies and the clamped work period (60_exceptions.md R165, R178,
R179, R181). -/

namespace Sys2Proof.Machine

/-! ## After a DEC -/

/-- Every verdict but OK is an error the host maps: no DEC leaves IDLE (R24, R165). -/
theorem hostError_verdict_eq_none_iff (raw : Vector Byte 10) :
    hostError (verdict raw).1 = none ↔ (verdict raw).1 = Config.rxstOk := by
  rcases verdict_cases raw with ⟨-, hv⟩ | ⟨-, -, hv⟩ | ⟨-, -, -, hv⟩ | ⟨-, -, -, hv⟩ | ⟨-, -, -, -, hv⟩ <;>
    rw [hv] <;> decide

section AfterDecode

variable {i : Instr} {s t : State} (hi : i.isDecode = true) (h : exec i s = .next t)
include hi h

theorem hostError_eq_none_iff_of_exec : hostError t.rxst = none ↔ t.rxst = Config.rxstOk := by
  obtain ⟨raw, hx⟩ := Instr.expand_of_isDecode hi
  obtain rfl := eq_latchResponse_of_exec hx h
  exact hostError_verdict_eq_none_iff raw

/-- RDV is computed by the host's own acceptance test of a Reading (R138, R179). -/
theorem acceptsReading_of_exec : t.acceptsReading = t.rdv := by
  obtain ⟨raw, hx⟩ := Instr.expand_of_isDecode hi
  obtain rfl := eq_latchResponse_of_exec hx h
  rfl

end AfterDecode

/-! ## The reply to CMD_QUERY -/

section Replies

variable {s : State}

theorem acceptsReading_iff : s.acceptsReading = true ↔ s.rxst = Config.rxstOk ∧ s.rxtag = Config.rxtagData :=
  readingValid_iff s.rxst s.rxtag

theorem queryReplyError_of_accepts (h : s.acceptsReading = true) : s.queryReplyError = none := if_pos h

theorem queryReplyError_of_ok (hacc : s.acceptsReading ≠ true) (hok : s.rxst = Config.rxstOk) :
    s.queryReplyError = some .protocolError := by
  rw [State.queryReplyError, if_neg hacc, if_pos hok]

theorem queryReplyError_of_not_ok (h : s.rxst ≠ Config.rxstOk) : s.queryReplyError = hostError s.rxst := by
  have hacc : ¬ s.acceptsReading = true := fun hacc => h (acceptsReading_iff.mp hacc).1
  rw [State.queryReplyError, if_neg hacc, if_neg h]

/-- Where a status without an error is OK, as after every DEC, the host reports no error exactly for a reply it accepts. -/
theorem queryReplyError_eq_none_iff (hst : hostError s.rxst = none ↔ s.rxst = Config.rxstOk) :
    s.queryReplyError = none ↔ s.acceptsReading = true := by
  refine ⟨fun hnone => Classical.byContradiction fun hacc => ?_, queryReplyError_of_accepts⟩
  by_cases hok : s.rxst = Config.rxstOk
  · cases (queryReplyError_of_ok hacc hok).symm.trans hnone
  · exact hok (hst.mp ((queryReplyError_of_not_ok hok).symm.trans hnone))

/-! ## The reply to a configuration command -/

variable {k : Fin 6} {opid : Byte}

theorem settingReplyError_of_match (hok : s.rxst = Config.rxstOk)
    (hmatch : s.rxtag = Config.rxtagSetting ∧ s.rxp[k] = opid) : s.settingReplyError k opid = none := by
  rw [State.settingReplyError, if_pos hok, if_pos hmatch]

theorem settingReplyError_of_mismatch (hok : s.rxst = Config.rxstOk)
    (hmatch : ¬ (s.rxtag = Config.rxtagSetting ∧ s.rxp[k] = opid)) :
    s.settingReplyError k opid = some .protocolError := by
  rw [State.settingReplyError, if_pos hok, if_neg hmatch]

theorem settingReplyError_of_not_ok (h : s.rxst ≠ Config.rxstOk) : s.settingReplyError k opid = hostError s.rxst :=
  if_neg h

theorem settingReplyError_eq_none_iff (hst : hostError s.rxst = none ↔ s.rxst = Config.rxstOk) :
    s.settingReplyError k opid = none ↔
      s.rxst = Config.rxstOk ∧ s.rxtag = Config.rxtagSetting ∧ s.rxp[k] = opid := by
  refine ⟨fun hnone => ?_, fun ⟨hok, hmatch⟩ => settingReplyError_of_match hok hmatch⟩
  have hok : s.rxst = Config.rxstOk := Classical.byContradiction fun hok =>
    hok (hst.mp ((settingReplyError_of_not_ok hok).symm.trans hnone))
  refine ⟨hok, Classical.byContradiction fun hmatch => ?_⟩
  cases (settingReplyError_of_mismatch hok hmatch).symm.trans hnone

end Replies

/-! ## Work periods -/

theorem clampMinutes_of_neg {n : Int} (h : n < 0) : clampMinutes n = (0, true) := if_pos h

theorem clampMinutes_of_gt {n : Int} (h : n > 30) : clampMinutes n = (30, true) := by
  have hpos : ¬ n < 0 := by omega
  rw [clampMinutes, if_neg hpos, if_pos h]

theorem clampMinutes_of_admitted {n : Int} (h : minutesAdmitted n) : clampMinutes n = (n, false) := by
  rw [clampMinutes, if_neg (Int.not_lt.mpr h.1), if_neg (Int.not_lt.mpr h.2)]

/-- Settles O55: a DEC computes RDV by the host's test and leaves no IDLE, so the host reports no error exactly where it
accepts. -/
theorem hostViewOfTheRegisters : Obligations.HostViewOfTheRegisters := by
  refine ⟨rfl, rfl, rfl, rfl, rfl, fun i s t hi h => acceptsReading_of_exec hi h, fun i s t hi h => ?query,
    fun i s t k opid hi h => ?setting, fun n => clampMinutes_of_neg, fun n => clampMinutes_of_gt,
    fun n hlo hhi => clampMinutes_of_admitted ⟨hlo, hhi⟩⟩
  case query =>
    refine ⟨?accepted, fun hok htag => ?settingTagged, queryReplyError_of_not_ok⟩
    case accepted =>
      rw [← acceptsReading_of_exec hi h]
      exact queryReplyError_eq_none_iff (hostError_eq_none_iff_of_exec hi h)
    case settingTagged =>
      refine queryReplyError_of_ok (fun hacc => ?_) hok
      exact absurd (htag.symm.trans (acceptsReading_iff.mp hacc).2) (by decide)
  case setting =>
    refine ⟨settingReplyError_eq_none_iff (hostError_eq_none_iff_of_exec hi h), fun hok hother => ?other,
      settingReplyError_of_not_ok⟩
    case other =>
      refine settingReplyError_of_mismatch hok fun ⟨htag, hopid⟩ => ?_
      rcases hother with hdata | hne
      · exact absurd (htag.symm.trans hdata) (by decide)
      · exact hne hopid

end Sys2Proof.Machine
end

section
/-! PROOFS. An ENC and a DEC may be issued in either order (70_reset_and_hazards.md R202), because the two units share no state
(R36). -/

namespace Sys2Proof.Machine

theorem wellFormed_of_isDecode {i : Instr} (h : i.isDecode = true) : i.wellFormed = true := by
  cases i with
  | dec _ | rspData _ _ | rspSetting _ _ => rfl
  | _ => cases h

/-- The registers ENC writes and those DEC writes are disjoint, and neither latched value reads a register (R36). -/
theorem State.latchResponse_latchFrame_comm (s : State) (frame : Vector Byte 19) (raw : Vector Byte 10) :
    (s.latchResponse raw).latchFrame frame = (s.latchFrame frame).latchResponse raw := rfl

/-- Settles O42: an ENC under any name latches its frame and a DEC its response, and the two latches commute. -/
theorem encodeAndDecodeCommute : Obligations.EncodeAndDecodeCommute := by
  intro i j s hi hiwf hj
  have hjwf := wellFormed_of_isDecode hj
  obtain ⟨o, p, a, b, hix⟩ := Instr.expand_of_isEncode hi
  obtain ⟨raw, hjx⟩ := Instr.expand_of_isDecode hj
  have henc := exec_of_expand_enc hiwf hix
  have hdec := exec_of_expand_dec hjwf hjx
  refine ⟨_, _, _, henc s, hdec _, hdec s, ?_⟩
  rw [henc, State.latchResponse_latchFrame_comm]

end Sys2Proof.Machine
end
